-- ==== Sys2Proof/Word.lean ====
section
/-! DEFINITION. The word types of OOK-SMR (00_scope.md R9, R13): every register, field and bus value
is an unsigned integer of its stated width. -/

namespace Sys2Proof

/-- An input unit, and one half of a sample pair (`UNIT_W`, `SAMPLE_W`, R9). -/
abbrev Byte := BitVec 8

/-- A configuration word (`CFG_DATA_W`, `RATE_W`, `PERIOD_W`, R9). -/
abbrev Word := BitVec 32

/-- A configuration word address (`CFG_ADDR_W`, R9). -/
abbrev CfgAddr := BitVec 3

/-- The index of a symbol within the held unit (10_state.md R31, R32). -/
abbrev SymIdx := BitVec 3

/-- A samples-per-symbol value or repetition count (`SPS_W`, R9). -/
abbrev Sps := BitVec 45

end Sys2Proof
end

