-- ==== Sys2Proof/Config.lean ====
section
/-! DEFINITION. The implementation parameters of 00_scope.md R9, named as R11 asks, and the two points
the spec leaves open: the state before the first reset (70_reset_and_hazards.md R192) and
`HOST_PERIOD_MAP` (00_scope.md R10, 92_eei_decisions.md D18). -/

namespace Sys2Proof.Config

/-- `SYMS_PER_BYTE` (R9). -/
def symsPerByte : Nat := 8

/-- `US_PER_S`, the divisor of the SPS formula (R9). -/
def usPerS : Nat := 1000000

/-- `ON_I`, `ON_Q`: the LUT entry for symbol 1 (R9). -/
def onI : Byte := 127#8
@[inherit_doc onI] def onQ : Byte := 0#8

/-- `OFF_I`, `OFF_Q`: the LUT entry for symbol 0 (R9). -/
def offI : Byte := 0#8
@[inherit_doc offI] def offQ : Byte := 0#8

/-- `RESET_RATE`, in Hz (R9). -/
def resetRate : Word := 10000000#32

/-- `RESET_PERIOD`, in microseconds (R9). -/
def resetPeriod : Word := 127#32

/-- `CHAR_ONE`, `CHAR_ZERO`: the two symbol characters of TEXT mode (R9). -/
def charOne : Byte := 0x31#8
@[inherit_doc charOne] def charZero : Byte := 0x30#8

/-- Free values: the block's nine elements before the first reset edge, an arbitrary draw (R192).
Nothing constrains them. Log entry 10. -/
opaque powerOnEn : Bool
@[inherit_doc powerOnEn] opaque powerOnText : Bool
@[inherit_doc powerOnEn] opaque powerOnRate : Word
@[inherit_doc powerOnEn] opaque powerOnPeriod : Word
@[inherit_doc powerOnEn] opaque powerOnHeld : Bool
@[inherit_doc powerOnEn] opaque powerOnUnit : Byte
@[inherit_doc powerOnEn] opaque powerOnBidx : SymIdx
@[inherit_doc powerOnEn] opaque powerOnLastidx : SymIdx
@[inherit_doc powerOnEn] opaque powerOnCnt : Sps

/-- Free value: `HOST_PERIOD_MAP` for a parsed `-p` that is no 32-bit unsigned value (R10, D18). It lies
in the host, outside the block. Log entry 11. -/
opaque hostPeriodMap : Int → Word

end Sys2Proof.Config
end

