-- ==== Sys2Proof/Syntax.lean ====
section
/-! DEFINITION. The closed set of block operations (30_encoding.md R82), one constructor per row of
spec/opcode_table.json, and the selector words that select them (R71 to R75). -/

namespace Sys2Proof

/-- The 21 operations of OOK-SMR. Don't-care bits of a selector are no operand (log entry 19). -/
inductive Instr where
  /-- Configuration read (R100). -/
  | cfgRd (addr : CfgAddr)
  /-- Write of CTRL (R101). -/
  | cfgWrCtrl (wdata : Word)
  /-- Write of RATE (R102). -/
  | cfgWrRate (wdata : Word)
  /-- Write of PERIOD (R103). -/
  | cfgWrPeriod (wdata : Word)
  /-- Write to the read-only SPS_LO (R104). -/
  | cfgWrSpsLo (wdata : Word)
  /-- Write to the read-only SPS_HI (R105). -/
  | cfgWrSpsHi (wdata : Word)
  /-- Write to the read-only STATUS (R106). -/
  | cfgWrStatus (wdata : Word)
  /-- Write to address 6 (`lsb` 0) or 7 (`lsb` 1) (R107). -/
  | cfgWrUnmapped (lsb : BitVec 1) (wdata : Word)
  /-- No input transfer (R116). -/
  | inNone
  /-- Accept a byte in BINARY mode (R112). -/
  | unitBin (data : Byte)
  /-- Accept '1' in TEXT mode (R113). -/
  | unitTxtOne
  /-- Accept '0' in TEXT mode (R114). -/
  | unitTxtZero
  /-- Accept and discard any other byte in TEXT mode (R115). -/
  | unitTxtSkip (data : Byte)
  /-- LUT entry for symbol 1 (R131). -/
  | mapOne
  /-- LUT entry for symbol 0 (R132). -/
  | mapZero
  /-- Nothing offered (R156). -/
  | outIdle
  /-- A pair offered, not taken (R155). -/
  | outStall
  /-- A pair taken, not its symbol's last (R152). -/
  | emitRepeat
  /-- The last pair of a symbol that is not its unit's last (R153). -/
  | emitSymbolEnd
  /-- The last pair of the unit (R154). -/
  | emitUnitEnd
  /-- Reset (R190). -/
  | reset
  deriving DecidableEq, Repr

/-- The five selector formats (30_encoding.md R71 to R75). -/
inductive Format where
  | c | u | l | e | r
  deriving DecidableEq, Repr

/-- A selector word of one of the formats. -/
inductive Selector where
  /-- Configuration command: WE, ADDR, WDATA (R71). -/
  | c (w : BitVec 36)
  /-- Input unit word: FIRE, MODE, DATA (R72). -/
  | u (w : BitVec 10)
  /-- LUT index: the current symbol (R73). -/
  | l (w : BitVec 1)
  /-- Output condition word: HELD, READY, SLAST, ULAST (R74). -/
  | e (w : BitVec 4)
  /-- Reset: `rst` (R75). -/
  | r (w : BitVec 1)
  deriving DecidableEq, Repr

/-- Why the decoder gives no operation. -/
inductive Reject where
  /-- Format R value 0 "selects nothing" (R75). Raised by `decodeR`. Safe: the spec's own words. -/
  | selectsNothing
  /-- Fewer bytes than the format has. Raised by `decodeBytes` only, never in a cycle. Safe. -/
  | truncated
  /-- A bit set above the format's width. Raised by `decodeBytes` only, never in a cycle. Safe. -/
  | bitsAboveFormat
  deriving DecidableEq, Repr

/-- One row of the operation map (R82): the words of `format` whose bits under `mask` are `pat`, less
the words of `exclude`. -/
structure Row where
  mnemonic : String
  format : Format
  mask : Nat
  pat : Nat
  exclude : List Nat := []
  deriving DecidableEq, Repr

end Sys2Proof
end

