-- ==== Sys2Proof/WellFormed.lean ====
section
/-! DEFINITION. Which terms of `Instr` are operations of the map (30_encoding.md R82). The types carry
every check but one. -/

namespace Sys2Proof

/-- UNIT_TXT_SKIP has "DATA not 0x30 or 0x31" (R82, 41_symbol_extraction.md R115); every other term is an
operation. -/
def Instr.wellFormed : Instr → Bool
  | .unitTxtSkip d => d != Config.charOne && d != Config.charZero
  | .cfgRd _ | .cfgWrCtrl _ | .cfgWrRate _ | .cfgWrPeriod _ | .cfgWrSpsLo _ | .cfgWrSpsHi _
  | .cfgWrStatus _ | .cfgWrUnmapped _ _ | .inNone | .unitBin _ | .unitTxtOne | .unitTxtZero
  | .mapOne | .mapZero | .outIdle | .outStall | .emitRepeat | .emitSymbolEnd | .emitUnitEnd
  | .reset => true

end Sys2Proof
end

