-- ==== Sys2Proof/Decode.lean ====
section
/-! DEFINITION. Decoding of selector words (30_encoding.md R82 to R85), the encoder, the operation map as
data, and the byte form of a selector word that `decodeTableWord` reads. -/

namespace Sys2Proof

/-! ### Decoding -/

/-- Format C (R71, R82): bit 35 WE, bits 34:32 ADDR, bits 31:0 WDATA. -/
def decodeC (w : BitVec 36) : Instr :=
  let addr := w.extractLsb' 32 3
  let wdata := w.extractLsb' 0 32
  if w[35] = false then .cfgRd addr
  else if addr = 0#3 then .cfgWrCtrl wdata
  else if addr = 1#3 then .cfgWrRate wdata
  else if addr = 2#3 then .cfgWrPeriod wdata
  else if addr = 3#3 then .cfgWrSpsLo wdata
  else if addr = 4#3 then .cfgWrSpsHi wdata
  else if addr = 5#3 then .cfgWrStatus wdata
  else .cfgWrUnmapped (w.extractLsb' 32 1) wdata

/-- Format U (R72, R82), with the priority of R84: bit 9 FIRE, bit 8 MODE, bits 7:0 DATA. -/
def decodeU (w : BitVec 10) : Instr :=
  let data := w.extractLsb' 0 8
  if w[9] = false then .inNone
  else if w[8] = false then .unitBin data
  else if data = Config.charOne then .unitTxtOne
  else if data = Config.charZero then .unitTxtZero
  else .unitTxtSkip data

/-- Format L (R73). -/
def decodeL (w : BitVec 1) : Instr :=
  if w[0] then .mapOne else .mapZero

/-- Format E (R74, R82): bit 3 HELD, bit 2 READY, bit 1 SLAST, bit 0 ULAST. -/
def decodeE (w : BitVec 4) : Instr :=
  if w[3] = false then .outIdle
  else if w[2] = false then .outStall
  else if w[1] = false then .emitRepeat
  else if w[0] = false then .emitSymbolEnd
  else .emitUnitEnd

/-- Format R (R75): "Value 1 selects RESET. Value 0 selects nothing." -/
def decodeR (w : BitVec 1) : Except Reject Instr :=
  if w[0] then .ok .reset else .error .selectsNothing

/-- The decoder: total on every word of every format (R83). -/
def decode : Selector → Except Reject Instr
  | .c w => .ok (decodeC w)
  | .u w => .ok (decodeU w)
  | .l w => .ok (decodeL w)
  | .e w => .ok (decodeE w)
  | .r w => decodeR w

/-! ### Encoding -/

/-- The word of an operation (R82), its don't-care bits 0. -/
def encode : Instr → Selector
  | .cfgRd a => .c (0#1 ++ a ++ 0#32)
  | .cfgWrCtrl v => .c (0b1000#4 ++ v)
  | .cfgWrRate v => .c (0b1001#4 ++ v)
  | .cfgWrPeriod v => .c (0b1010#4 ++ v)
  | .cfgWrSpsLo v => .c (0b1011#4 ++ v)
  | .cfgWrSpsHi v => .c (0b1100#4 ++ v)
  | .cfgWrStatus v => .c (0b1101#4 ++ v)
  | .cfgWrUnmapped b v => .c (0b111#3 ++ b ++ v)
  | .inNone => .u 0#10
  | .unitBin d => .u (0b10#2 ++ d)
  | .unitTxtOne => .u 0b1100110001#10
  | .unitTxtZero => .u 0b1100110000#10
  | .unitTxtSkip d => .u (0b11#2 ++ d)
  | .mapOne => .l 1#1
  | .mapZero => .l 0#1
  | .outIdle => .e 0b0000#4
  | .outStall => .e 0b1000#4
  | .emitRepeat => .e 0b1100#4
  | .emitSymbolEnd => .e 0b1110#4
  | .emitUnitEnd => .e 0b1111#4
  | .reset => .r 1#1

/-! ### The operation map as data -/

/-- The format of a selector. -/
def Selector.format : Selector → Format
  | .c _ => .c
  | .u _ => .u
  | .l _ => .l
  | .e _ => .e
  | .r _ => .r

/-- The bits of a selector, as a number with bit 0 the least significant (00_scope.md R12). -/
def Selector.toNat : Selector → Nat
  | .c w => w.toNat
  | .u w => w.toNat
  | .l w => w.toNat
  | .e w => w.toNat
  | .r w => w.toNat

/-- A row selects a word of its own format that agrees with its pattern and is not excluded (R82). -/
def Row.selects (row : Row) (sel : Selector) : Bool :=
  row.format == sel.format && sel.toNat &&& row.mask == row.pat && !row.exclude.contains sel.toNat

/-- The row of the operation map that an operation belongs to (R82; masks and patterns as
spec/opcode_table.json writes them). -/
def Instr.row : Instr → Row
  | .cfgRd _ => { mnemonic := "CFG_RD", format := .c, mask := 0x800000000, pat := 0x0 }
  | .cfgWrCtrl _ => { mnemonic := "CFG_WR_CTRL", format := .c, mask := 0xf00000000, pat := 0x800000000 }
  | .cfgWrRate _ => { mnemonic := "CFG_WR_RATE", format := .c, mask := 0xf00000000, pat := 0x900000000 }
  | .cfgWrPeriod _ => { mnemonic := "CFG_WR_PERIOD", format := .c, mask := 0xf00000000, pat := 0xa00000000 }
  | .cfgWrSpsLo _ => { mnemonic := "CFG_WR_SPS_LO", format := .c, mask := 0xf00000000, pat := 0xb00000000 }
  | .cfgWrSpsHi _ => { mnemonic := "CFG_WR_SPS_HI", format := .c, mask := 0xf00000000, pat := 0xc00000000 }
  | .cfgWrStatus _ => { mnemonic := "CFG_WR_STATUS", format := .c, mask := 0xf00000000, pat := 0xd00000000 }
  | .cfgWrUnmapped _ _ => { mnemonic := "CFG_WR_UNMAPPED", format := .c, mask := 0xe00000000, pat := 0xe00000000 }
  | .inNone => { mnemonic := "IN_NONE", format := .u, mask := 0x200, pat := 0x0 }
  | .unitBin _ => { mnemonic := "UNIT_BIN", format := .u, mask := 0x300, pat := 0x200 }
  | .unitTxtOne => { mnemonic := "UNIT_TXT_ONE", format := .u, mask := 0x3ff, pat := 0x331 }
  | .unitTxtZero => { mnemonic := "UNIT_TXT_ZERO", format := .u, mask := 0x3ff, pat := 0x330 }
  | .unitTxtSkip _ =>
    { mnemonic := "UNIT_TXT_SKIP", format := .u, mask := 0x300, pat := 0x300, exclude := [0x331, 0x330] }
  | .mapOne => { mnemonic := "MAP_ONE", format := .l, mask := 0x1, pat := 0x1 }
  | .mapZero => { mnemonic := "MAP_ZERO", format := .l, mask := 0x1, pat := 0x0 }
  | .outIdle => { mnemonic := "OUT_IDLE", format := .e, mask := 0x8, pat := 0x0 }
  | .outStall => { mnemonic := "OUT_STALL", format := .e, mask := 0xc, pat := 0x8 }
  | .emitRepeat => { mnemonic := "EMIT_REPEAT", format := .e, mask := 0xe, pat := 0xc }
  | .emitSymbolEnd => { mnemonic := "EMIT_SYMBOL_END", format := .e, mask := 0xf, pat := 0xe }
  | .emitUnitEnd => { mnemonic := "EMIT_UNIT_END", format := .e, mask := 0xf, pat := 0xf }
  | .reset => { mnemonic := "RESET", format := .r, mask := 0x1, pat := 0x1 }

/-- One operation of every row, in the order of R82. -/
def Instr.samples : List Instr :=
  [.cfgRd 0, .cfgWrCtrl 0, .cfgWrRate 0, .cfgWrPeriod 0, .cfgWrSpsLo 0, .cfgWrSpsHi 0, .cfgWrStatus 0,
    .cfgWrUnmapped 0 0, .inNone, .unitBin 0, .unitTxtOne, .unitTxtZero, .unitTxtSkip 0, .mapOne, .mapZero,
    .outIdle, .outStall, .emitRepeat, .emitSymbolEnd, .emitUnitEnd, .reset]

/-- The complete operation map, 21 rows (R82). -/
def opcodeTable : List Row := Instr.samples.map Instr.row

/-! ### Selector words as bytes

The hardware stores no instruction: it forms its selectors from ports and state. The byte form, least
significant byte first and the bits above the format's width 0, is the model's own (log entry 8). -/

/-- The width of a format in bits (R71 to R75). -/
def Format.width : Format → Nat
  | .c => 36
  | .u => 10
  | .l => 1
  | .e => 4
  | .r => 1

/-- The bytes a word of the format takes. -/
def Format.bytes (f : Format) : Nat := (f.width + 7) / 8

/-- The selector of a format whose bits are `w`. -/
def Format.selector (f : Format) (w : Nat) : Selector :=
  match f with
  | .c => .c (BitVec.ofNat 36 w)
  | .u => .u (BitVec.ofNat 10 w)
  | .l => .l (BitVec.ofNat 1 w)
  | .e => .e (BitVec.ofNat 4 w)
  | .r => .r (BitVec.ofNat 1 w)

/-- The number a little-endian byte string stands for. -/
def leNat (bs : List Byte) : Nat := bs.foldr (fun b acc => b.toNat + 256 * acc) 0

/-- The little-endian byte string of `n` bytes for a number. -/
def leBytes : Nat → Nat → List Byte
  | 0, _ => []
  | n + 1, w => BitVec.ofNat 8 w :: leBytes n (w / 256)

/-- The operation a byte string of the format stands for, and the bytes after it. Total: it rejects a
short string and a set bit above the format's width by name. -/
def decodeBytes (f : Format) (bs : List Byte) : Except Reject (Instr × List Byte) :=
  if bs.length < f.bytes then .error .truncated
  else
    let w := leNat (bs.take f.bytes)
    if 2 ^ f.width ≤ w then .error .bitsAboveFormat
    else (decode (f.selector w)).map fun i => (i, bs.drop f.bytes)

/-- The format a table word of `nbits` bits is read in. Widths 36 and 10 tell formats C and U; a word of
one byte may be of format R, E or L, tried in that order: first the sides of R70, RESET for the word 1
and format E where the width leaves room for it, then the LUT. DESIGN CHOICE, log entry 8. -/
def tableFormat (nbits w : Nat) : Option Format :=
  if 40 < nbits then none
  else if 16 < nbits then some .c
  else if 8 < nbits then some .u
  else if w = 1 then some .r
  else if 4 ≤ nbits then some .e
  else some .l

/-- The selector a table word stands for, where its bits fit its format. -/
def tableSelector (nbits w : Nat) : Option Selector :=
  (tableFormat nbits w).bind fun f => if w < 2 ^ f.width then some (f.selector w) else none

/-- What the decoder reads from a table word: the word laid out in bytes and given to `decodeBytes`. -/
def decodeTableWord (nbits w : Nat) : Option Instr :=
  (tableFormat nbits w).bind fun f =>
    if w < 256 ^ f.bytes then
      match decodeBytes f (leBytes f.bytes w) with
      | .ok (i, _) => some i
      | .error _ => none
    else none

end Sys2Proof
end

