-- ==== Sys2Proof/Machine/State.lean ====
section
/-! DEFINITION. The state: the nine elements of the block (10_state.md R20), the port values (00_scope.md
R19), and the environment agents that drive and observe the ports (R8, 30_encoding.md R86). -/

namespace Sys2Proof.Machine

/-- Nothing raises a fault: "No operation of `opcode_table.json` traps, faults, halts or signals an
error" (60_exceptions.md R170). So the type has no constructor; that is safe, being the spec's rule. -/
inductive Fault where
  deriving DecidableEq, Repr

/-- Why a step has no meaning. -/
inductive Refusal where
  /-- An instruction without a meaning yet, raised by an arm of `exec`. Safe. No arm raises it now. -/
  | notModelled (mnemonic : String)
  deriving DecidableEq, Repr

/-- The values of MODE (10_state.md R22): 0 is BINARY, 1 is TEXT. -/
inductive Mode where
  | binary | text
  deriving DecidableEq, Repr

/-- The complete state of OOK-SMR (10_state.md R20). "Nothing else is state." -/
structure Block where
  /-- EN, CTRL bit 0 (R21). -/
  en : Bool
  /-- MODE, CTRL bit 1 (R22). -/
  mode : Mode
  /-- RATE, `sample_rate_hz` (R23). -/
  rate : Word
  /-- PERIOD, `symbol_period_us` (R24). -/
  period : Word
  /-- A unit with at least one symbol is being emitted (R29). -/
  held : Bool
  /-- The symbol bits of the held unit (R30). -/
  unit : Byte
  /-- The index of the symbol being emitted (R31). -/
  bidx : SymIdx
  /-- The index of the held unit's last symbol (R32). -/
  lastidx : SymIdx
  /-- Pairs of the current symbol already transferred (R33). -/
  cnt : Sps
  deriving DecidableEq, Repr

/-- One sample pair (00_scope.md R2, 30_encoding.md R76), both bytes two's complement. -/
structure Pair where
  i : Byte
  q : Byte
  deriving DecidableEq, Repr

/-- The input ports in one cycle (00_scope.md R19); `clk` is the step itself. -/
structure PortIn where
  rst : Bool
  cfgWe : Bool
  cfgAddr : CfgAddr
  cfgWdata : Word
  inValid : Bool
  inData : Byte
  outReady : Bool
  deriving DecidableEq, Repr

/-- The output ports in one cycle (00_scope.md R19); `out_data` is `{out_q, out_i}`, the same pair
packed. -/
structure PortOut where
  cfgRdata : Word
  inReady : Bool
  outValid : Bool
  out : Pair
  deriving DecidableEq, Repr

/-- One line of a stimulus program (30_encoding.md R86). -/
inductive Line where
  /-- `rst` = 1 for one cycle. -/
  | reset
  /-- One cycle with `cfg_we` = 1. -/
  | wr (reg : CfgAddr) (v : Word)
  /-- One cycle with `cfg_we` = 0; records `cfg_rdata`. -/
  | rd (reg : CfgAddr)
  /-- Offers the unit from this cycle until the cycle in which it transfers. -/
  | unit (v : Byte)
  /-- Sets `out_ready` from the first cycle of the next line on; takes no cycle. -/
  | sink (on : Bool)
  /-- `n` cycles with `cfg_we` = 0 and `in_valid` = 0. -/
  | idle (n : Nat)
  /-- `rd STATUS`, repeated until bit 0 of the result is 0 (R87). -/
  | waitIdle
  /-- One cycle with every port as given: any stimulus at all, the model's own line (log entry 12). -/
  | cycle (p : PortIn)
  deriving DecidableEq, Repr

/-- A unit transferred on the input port, with the MODE and SPS of its cycle
(43_sample_replication.md R157). -/
structure Accepted where
  mode : Mode
  sps : Sps
  data : Byte
  deriving DecidableEq, Repr

/-- The block, its output ports in the cycle just ended, and the environment (log entry 1). -/
structure State where
  /-- The block's whole state (10_state.md R20). -/
  block : Block
  /-- What the block drove in the cycle just ended (log entry 3). -/
  pins : PortOut
  /-- The stimulus still to be driven (30_encoding.md R86). -/
  script : List Line
  /-- What the environment starts over with each time the script has run out: the lines of a source that
  re-offers its input for ever (60_exceptions.md R181, 70_reset_and_hazards.md R209, R213), or of any
  environment that never ends. Empty for one that ends (log entry 22). -/
  again : List Line
  /-- The testbench's sink level, the `out_ready` of lines that do not drive it (R86). -/
  sinkOn : Bool
  /-- The host's record: what its `rd` lines read, oldest first (R86). -/
  reads : List Word
  /-- The source's record: the units transferred, oldest first (43_sample_replication.md R157). -/
  accepted : List Accepted
  /-- The sink's record: the pairs transferred, oldest first (70_reset_and_hazards.md R210). -/
  taken : List Pair
  deriving DecidableEq, Repr

/-- The value of every state element after a reset edge (10_state.md R44). -/
def Block.reset : Block where
  en := false
  mode := .binary
  rate := Config.resetRate
  period := Config.resetPeriod
  held := false
  unit := 0#8
  bidx := 0#3
  lastidx := 0#3
  cnt := 0#45

/-- The block before its first reset edge, "an arbitrary draw" (70_reset_and_hazards.md R192). -/
def Block.powerOn : Block where
  en := Config.powerOnEn
  mode := if Config.powerOnText then .text else .binary
  rate := Config.powerOnRate
  period := Config.powerOnPeriod
  held := Config.powerOnHeld
  unit := Config.powerOnUnit
  bidx := Config.powerOnBidx
  lastidx := Config.powerOnLastidx
  cnt := Config.powerOnCnt

/-- Output ports before any cycle has been seen (log entry 3). -/
def PortOut.none : PortOut where
  cfgRdata := 0#32
  inReady := false
  outValid := false
  out := { i := 0#8, q := 0#8 }

/-- A machine whose environment has done nothing yet, its sink off (30_encoding.md R86). -/
def State.fresh (b : Block) : State where
  block := b
  pins := PortOut.none
  script := []
  again := []
  sinkOn := false
  reads := []
  accepted := []
  taken := []

/-- The machine right after a reset edge (10_state.md R44), nothing yet driven or observed. -/
def State.reset : State := State.fresh Block.reset

/-- The machine before its first reset edge (70_reset_and_hazards.md R192). -/
def State.powerOn : State := State.fresh Block.powerOn

end Sys2Proof.Machine
end

