-- ==== Sys2Proof/Machine/Flags.lean ====
section
/-! DEFINITION. The derived values of 10_state.md, "combinational functions of this state" (R20): the block
has no flags or condition codes (R38); STATUS and the emit conditions are views of state. -/

namespace Sys2Proof.Machine

/-- The bit of MODE (R22). -/
def Mode.bit : Mode → Bool
  | .binary => false
  | .text => true

/-- The MODE a bit encodes (R22). -/
def Mode.ofBit (b : Bool) : Mode := if b then .text else .binary

/-- SPS as an integer: exact product, exact floor division (R26). -/
def Block.spsNat (b : Block) : Nat := b.period.toNat * b.rate.toNat / Config.usPerS

/-- SPS, the 45-bit value (R26). -/
def Block.sps (b : Block) : Sps := BitVec.ofNat 45 b.spsNat

/-- LOCKED (R25). -/
def Block.locked (b : Block) : Bool := b.en || b.held

/-- BUSY (R28). -/
def Block.busy (b : Block) : Bool := b.held

/-- SPS_ZERO (R27). -/
def Block.spsZero (b : Block) : Bool := b.sps == 0#45

/-- The current symbol, `unit[bidx]` (R34). -/
def Block.sym (b : Block) : Bool := b.unit.getLsbD b.bidx.toNat

/-- SLAST, `cnt == SPS - 1` over the integers (30_encoding.md R74). -/
def Block.slast (b : Block) : Bool := b.cnt.toNat + 1 == b.sps.toNat

/-- ULAST, `bidx == lastidx` (30_encoding.md R74). -/
def Block.ulast (b : Block) : Bool := b.bidx == b.lastidx

/-- The STATUS word (30_encoding.md R80). -/
def Block.status (b : Block) : Word :=
  (BitVec.ofBool b.spsZero ++ BitVec.ofBool b.locked ++ BitVec.ofBool b.busy).setWidth 32

end Sys2Proof.Machine
end

