-- ==== Sys2Proof/Machine/Operands.lean ====
section
/-! DEFINITION. The selector words formed in a cycle from ports and state (30_encoding.md R71 to R75), and
the assembly of operands (R81). -/

namespace Sys2Proof.Machine

/-- `in_ready` (10_state.md R41). -/
def inReady (b : Block) (p : PortIn) : Bool := !p.rst && b.en && !b.held

/-- `out_valid` (10_state.md R42). -/
def outValid (b : Block) (p : PortIn) : Bool := !p.rst && b.held

/-- Format C (R71): WE, ADDR, WDATA. -/
def formC (p : PortIn) : BitVec 36 := BitVec.ofBool p.cfgWe ++ p.cfgAddr ++ p.cfgWdata

/-- Format U (R72): FIRE, MODE, DATA. -/
def formU (b : Block) (p : PortIn) : BitVec 10 :=
  BitVec.ofBool (p.inValid && inReady b p) ++ BitVec.ofBool b.mode.bit ++ p.inData

/-- Format L (R73): `sym`. -/
def formL (b : Block) : BitVec 1 := BitVec.ofBool b.sym

/-- Format E (R74): HELD, READY, SLAST, ULAST. "SLAST and ULAST are compared only when HELD = 1": they are
0 while no unit is held (log entry 6). -/
def formE (b : Block) (p : PortIn) : BitVec 4 :=
  BitVec.ofBool b.held ++ BitVec.ofBool p.outReady ++ BitVec.ofBool (b.held && b.slast)
    ++ BitVec.ofBool (b.held && b.ulast)

/-- Format R (R75): `rst`. -/
def formR (p : PortIn) : BitVec 1 := BitVec.ofBool p.rst

/-- EN of a CTRL write (R81): WDATA[0]. -/
def ctrlEn (wdata : Word) : Bool := wdata[0]

/-- MODE of a CTRL write (R81): WDATA[1]. -/
def ctrlMode (wdata : Word) : Mode := Mode.ofBit (wdata[1])

end Sys2Proof.Machine
end

