-- ==== Sys2Proof/Machine/Ops.lean ====
section
/-! DEFINITION. The named operations over the registers and ports: the configuration view and writes, the
hold write, `Accept`, `Emit` (00_scope.md R14), the LUT and the port outputs. The block takes no exception
and returns from none (60_exceptions.md R170, R173, R174), so there is no operation for either. -/

namespace Sys2Proof.Machine

/-! ### Configuration registers -/

/-- `CfgView(a)` (40_configuration.md R100; layouts 30_encoding.md R77 to R80). -/
def cfgView (a : CfgAddr) (b : Block) : Word :=
  if a = 0#3 then (BitVec.ofBool b.mode.bit ++ BitVec.ofBool b.en).setWidth 32
  else if a = 1#3 then b.rate
  else if a = 2#3 then b.period
  else if a = 3#3 then b.sps.extractLsb' 0 32
  else if a = 4#3 then (b.sps.extractLsb' 32 13).setWidth 32
  else if a = 5#3 then b.status
  else 0#32

/-- A write of CTRL: EN always, MODE while unlocked (R101). -/
def Block.writeCtrl (wdata : Word) (b : Block) : Block :=
  { b with en := ctrlEn wdata, mode := if b.locked then b.mode else ctrlMode wdata }

/-- A write of RATE, ignored while locked (R102). -/
def Block.writeRate (wdata : Word) (b : Block) : Block :=
  if b.locked then b else { b with rate := wdata }

/-- A write of PERIOD, ignored while locked (R103). -/
def Block.writePeriod (wdata : Word) (b : Block) : Block :=
  if b.locked then b else { b with period := wdata }

/-! ### The lookup table -/

/-- The LUT (42_iq_mapping.md R130). -/
def lut (sym : Bool) : Pair :=
  if sym then { i := Config.onI, q := Config.onQ } else { i := Config.offI, q := Config.offQ }

/-- The pair driven while no unit is held (10_state.md R43). -/
def silentPair : Pair := { i := 0#8, q := 0#8 }

/-- `out_data = {out_q, out_i}` (20_memory.md R53, 30_encoding.md R76). -/
def Pair.data (x : Pair) : BitVec 16 := x.q ++ x.i

/-- The bytes of a pair on a byte stream: I, then Q (20_memory.md R53). -/
def Pair.bytes (x : Pair) : List Byte := [x.i, x.q]

/-! ### Datapath -/

/-- `Hold(u, last)` (41_symbol_extraction.md R111). -/
def Block.hold (u : Byte) (last : SymIdx) (b : Block) : Block :=
  if b.sps = 0#45 then b
  else { b with held := true, unit := u, bidx := 0#3, lastidx := last, cnt := 0#45 }

/-- The write of EMIT_REPEAT (43_sample_replication.md R152). -/
def Block.nextSample (b : Block) : Block := { b with cnt := b.cnt + 1#45 }

/-- The write of EMIT_SYMBOL_END (R153). -/
def Block.nextSymbol (b : Block) : Block := { b with cnt := 0#45, bidx := b.bidx + 1#3 }

/-- The write of EMIT_UNIT_END (R154). -/
def Block.release (b : Block) : Block :=
  { b with held := false, unit := 0#8, bidx := 0#3, lastidx := 0#3, cnt := 0#45 }

/-! ### Actions on the whole state -/

/-- Replace the block's state. -/
def State.setBlock (b : Block) (s : State) : State := { s with block := b }

/-- Drive `cfg_rdata` with the view of the state before the edge (R100: in every cycle, whatever WE is). -/
def State.driveRead (a : CfgAddr) (s : State) : State :=
  { s with pins := { s.pins with cfgRdata := cfgView a s.block } }

/-- Drive `out_i` and `out_q`. -/
def State.drivePair (x : Pair) (s : State) : State := { s with pins := { s.pins with out := x } }

/-- Drive `out_valid`, `out_i` and `out_q`. -/
def State.driveOut (valid : Bool) (x : Pair) (s : State) : State :=
  { s with pins := { s.pins with outValid := valid, out := x } }

/-- `Accept(d)` (R14): the unit transfers on the input port, in a cycle of the given MODE and the current
SPS (43_sample_replication.md R157). -/
def State.accept (m : Mode) (d : Byte) (s : State) : State :=
  { s with accepted := s.accepted ++ [{ mode := m, sps := s.block.sps, data := d }] }

/-- `Emit(LUT(sym))` (R14): the current pair is driven and transfers on the output port. -/
def State.emit (s : State) : State :=
  { s.driveOut true (lut s.block.sym) with taken := s.taken ++ [lut s.block.sym] }

/-- The output ports in a cycle, combinational in ports and state (10_state.md R41 to R43, R100;
70_reset_and_hazards.md R191). -/
def portOut (b : Block) (p : PortIn) : PortOut where
  cfgRdata := cfgView p.cfgAddr b
  inReady := inReady b p
  outValid := outValid b p
  out := if b.held then lut b.sym else silentPair

end Sys2Proof.Machine
end

