-- ==== Sys2Proof/Machine/Configuration.lean ====
section
/-! DEFINITION. The configuration operations (40_configuration.md R100 to R107). Every one drives
`cfg_rdata` with the value before the edge (30_encoding.md R71, 20_memory.md R59). -/

namespace Sys2Proof.Machine

/-- CFG_RD (R100). -/
def execCfgRd (addr : CfgAddr) (s : State) : Host.Outcome State Fault Refusal :=
  .next (s.driveRead addr)

/-- CFG_WR_CTRL (R101). -/
def execCfgWrCtrl (wdata : Word) (s : State) : Host.Outcome State Fault Refusal :=
  .next ((s.driveRead 0#3).setBlock (s.block.writeCtrl wdata))

/-- CFG_WR_RATE (R102). -/
def execCfgWrRate (wdata : Word) (s : State) : Host.Outcome State Fault Refusal :=
  .next ((s.driveRead 1#3).setBlock (s.block.writeRate wdata))

/-- CFG_WR_PERIOD (R103). -/
def execCfgWrPeriod (wdata : Word) (s : State) : Host.Outcome State Fault Refusal :=
  .next ((s.driveRead 2#3).setBlock (s.block.writePeriod wdata))

/-- CFG_WR_SPS_LO (R104): no state is written. -/
def execCfgWrSpsLo (_wdata : Word) (s : State) : Host.Outcome State Fault Refusal :=
  .next (s.driveRead 3#3)

/-- CFG_WR_SPS_HI (R105): no state is written. -/
def execCfgWrSpsHi (_wdata : Word) (s : State) : Host.Outcome State Fault Refusal :=
  .next (s.driveRead 4#3)

/-- CFG_WR_STATUS (R106): no state is written. -/
def execCfgWrStatus (_wdata : Word) (s : State) : Host.Outcome State Fault Refusal :=
  .next (s.driveRead 5#3)

/-- CFG_WR_UNMAPPED (R107): no state is written; the address is 6 or 7 by its last bit. -/
def execCfgWrUnmapped (lsb : BitVec 1) (_wdata : Word) (s : State) : Host.Outcome State Fault Refusal :=
  .next (s.driveRead (0b11#2 ++ lsb))

end Sys2Proof.Machine
end

