-- ==== Sys2Proof/Machine/Extraction.lean ====
section
/-! DEFINITION. Symbol extraction: the input unit operations (41_symbol_extraction.md R112 to R116). -/

namespace Sys2Proof.Machine

/-- IN_NONE (R116): "the input side writes no state". -/
def execInNone (s : State) : Host.Outcome State Fault Refusal := .next s

/-- UNIT_BIN (R112): `Accept(DATA)`, `Hold(DATA, 7)`. -/
def execUnitBin (data : Byte) (s : State) : Host.Outcome State Fault Refusal :=
  .next ((s.accept .binary data).setBlock (s.block.hold data 7#3))

/-- UNIT_TXT_ONE (R113): `Accept(0x31)`, `Hold(0x01, 0)`. -/
def execUnitTxtOne (s : State) : Host.Outcome State Fault Refusal :=
  .next ((s.accept .text Config.charOne).setBlock (s.block.hold 0x01#8 0#3))

/-- UNIT_TXT_ZERO (R114): `Accept(0x30)`, `Hold(0x00, 0)`. -/
def execUnitTxtZero (s : State) : Host.Outcome State Fault Refusal :=
  .next ((s.accept .text Config.charZero).setBlock (s.block.hold 0x00#8 0#3))

/-- UNIT_TXT_SKIP (R115): `Accept(DATA)`, no datapath write. -/
def execUnitTxtSkip (data : Byte) (s : State) : Host.Outcome State Fault Refusal :=
  .next (s.accept .text data)

end Sys2Proof.Machine
end

