-- ==== Sys2Proof/Machine/IqMapping.lean ====
section
/-! DEFINITION. The I/Q mapping operations (42_iq_mapping.md R131, R132): combinational, no state of the
block is written. -/

namespace Sys2Proof.Machine

/-- MAP_ONE (R131): `(out_i, out_q) = (8'h7F, 8'h00)`. -/
def execMapOne (s : State) : Host.Outcome State Fault Refusal := .next (s.drivePair (lut true))

/-- MAP_ZERO (R132): `(out_i, out_q) = (8'h00, 8'h00)`. -/
def execMapZero (s : State) : Host.Outcome State Fault Refusal := .next (s.drivePair (lut false))

end Sys2Proof.Machine
end

