-- ==== Sys2Proof/Machine/Replication.lean ====
section
/-! DEFINITION. Sample replication: the output operations (43_sample_replication.md R152 to R156). -/

namespace Sys2Proof.Machine

/-- OUT_IDLE (R156): nothing is offered; `out_valid` = 0, `out_i` = `out_q` = 0x00. -/
def execOutIdle (s : State) : Host.Outcome State Fault Refusal := .next (s.driveOut false silentPair)

/-- OUT_STALL (R155): the current pair is offered and not taken. -/
def execOutStall (s : State) : Host.Outcome State Fault Refusal :=
  .next (s.driveOut true (lut s.block.sym))

/-- EMIT_REPEAT (R152). -/
def execEmitRepeat (s : State) : Host.Outcome State Fault Refusal :=
  .next (s.emit.setBlock s.block.nextSample)

/-- EMIT_SYMBOL_END (R153). -/
def execEmitSymbolEnd (s : State) : Host.Outcome State Fault Refusal :=
  .next (s.emit.setBlock s.block.nextSymbol)

/-- EMIT_UNIT_END (R154). -/
def execEmitUnitEnd (s : State) : Host.Outcome State Fault Refusal :=
  .next (s.emit.setBlock s.block.release)

end Sys2Proof.Machine
end

