-- ==== Sys2Proof/Machine/Reset.lean ====
section
/-! DEFINITION. RESET (70_reset_and_hazards.md R190). -/

namespace Sys2Proof.Machine

/-- RESET (R190): every state element takes its reset value. The environment is not the block's to reset
(log entry 20). -/
def execReset (s : State) : Host.Outcome State Fault Refusal := .next (s.setBlock Block.reset)

end Sys2Proof.Machine
end

