-- ==== Sys2Proof/Machine/Dispatch.lean ====
section
/-! DEFINITION. One arm per operation of the map (30_encoding.md R82). -/

namespace Sys2Proof.Machine

def exec (i : Instr) (s : State) : Host.Outcome State Fault Refusal :=
  match i with
  | .cfgRd addr => Sys2Proof.Machine.execCfgRd addr s
  | .cfgWrCtrl wdata => Sys2Proof.Machine.execCfgWrCtrl wdata s
  | .cfgWrRate wdata => Sys2Proof.Machine.execCfgWrRate wdata s
  | .cfgWrPeriod wdata => Sys2Proof.Machine.execCfgWrPeriod wdata s
  | .cfgWrSpsLo wdata => Sys2Proof.Machine.execCfgWrSpsLo wdata s
  | .cfgWrSpsHi wdata => Sys2Proof.Machine.execCfgWrSpsHi wdata s
  | .cfgWrStatus wdata => Sys2Proof.Machine.execCfgWrStatus wdata s
  | .cfgWrUnmapped lsb wdata => Sys2Proof.Machine.execCfgWrUnmapped lsb wdata s
  | .inNone => Sys2Proof.Machine.execInNone s
  | .unitBin data => Sys2Proof.Machine.execUnitBin data s
  | .unitTxtOne => Sys2Proof.Machine.execUnitTxtOne s
  | .unitTxtZero => Sys2Proof.Machine.execUnitTxtZero s
  | .unitTxtSkip data => Sys2Proof.Machine.execUnitTxtSkip data s
  | .mapOne => Sys2Proof.Machine.execMapOne s
  | .mapZero => Sys2Proof.Machine.execMapZero s
  | .outIdle => Sys2Proof.Machine.execOutIdle s
  | .outStall => Sys2Proof.Machine.execOutStall s
  | .emitRepeat => Sys2Proof.Machine.execEmitRepeat s
  | .emitSymbolEnd => Sys2Proof.Machine.execEmitSymbolEnd s
  | .emitUnitEnd => Sys2Proof.Machine.execEmitUnitEnd s
  | .reset => Sys2Proof.Machine.execReset s

end Sys2Proof.Machine
end

