-- ==== Sys2Proof/Machine/Stimulus.lean ====
section
/-! DEFINITION. The environment: how the lines of a stimulus program drive the ports (30_encoding.md R86),
the pseudo-instructions (R87), and the host's sequences (70_reset_and_hazards.md R193, R194, R214). -/

namespace Sys2Proof.Machine

/-! ### The register names of R86 -/

abbrev regCTRL : CfgAddr := 0#3
abbrev regRATE : CfgAddr := 1#3
abbrev regPERIOD : CfgAddr := 2#3
abbrev regSPS_LO : CfgAddr := 3#3
abbrev regSPS_HI : CfgAddr := 4#3
abbrev regSTATUS : CfgAddr := 5#3
abbrev regA6 : CfgAddr := 6#3
abbrev regA7 : CfgAddr := 7#3

/-! ### Driving the ports -/

/-- The ports in a cycle where no line drives them (R86): no write, address 5, no unit offered, the sink at
its last level. The data inputs, which nothing samples then, are 0 (log entry 4). -/
def undriven (sinkOn : Bool) : PortIn where
  rst := false
  cfgWe := false
  cfgAddr := regSTATUS
  cfgWdata := 0#32
  inValid := false
  inData := 0#8
  outReady := sinkOn

/-- The lines left once those that take no cycle are passed: `sink`, and `idle` of no cycles. -/
def settleLines : List Line → List Line
  | [] => []
  | .sink _ :: ls => settleLines ls
  | .idle 0 :: ls => settleLines ls
  | l :: ls => l :: ls

/-- The sink level once those lines are passed. -/
def settleSink : List Line → Bool → Bool
  | [], on => on
  | .sink on :: ls, _ => settleSink ls on
  | .idle 0 :: ls, on => settleSink ls on
  | _ :: _, on => on

/-- The ports a line drives in its cycle (R86), the undriven ones as `undriven` has them. -/
def Line.ports (sinkOn : Bool) : Line → PortIn
  | .reset => { undriven sinkOn with rst := true }
  | .wr reg v => { undriven sinkOn with cfgWe := true, cfgAddr := reg, cfgWdata := v }
  | .rd reg => { undriven sinkOn with cfgAddr := reg }
  | .unit v => { undriven sinkOn with inValid := true, inData := v }
  | .sink _ => undriven sinkOn
  | .idle _ => undriven sinkOn
  | .waitIdle => { undriven sinkOn with cfgAddr := regSTATUS }
  | .cycle p => p

/-- The ports the first of the pending lines drives; the undriven ones where no line is left (log entry 2). -/
def scriptPorts (sinkOn : Bool) : List Line → PortIn
  | [] => undriven sinkOn
  | l :: _ => l.ports sinkOn

/-- What is left of a line after a cycle begun in the given block state (R86, R87): a `unit` line stays
until its unit transfers, an `idle` line counts down, and `waitIdle` stays while STATUS bit 0 reads 1. -/
def Line.rest (b : Block) : Line → List Line
  | .reset => []
  | .wr _ _ => []
  | .rd _ => []
  | .unit v => if b.en && !b.held then [] else [.unit v]
  | .sink _ => []
  | .idle n => [.idle (n - 1)]
  | .waitIdle => if b.busy then [.waitIdle] else []
  | .cycle _ => []

/-- The script after a cycle begun in the given block state. -/
def scriptRest (b : Block) : List Line → List Line
  | [] => []
  | l :: ls => l.rest b ++ ls

/-- Whether a line records `cfg_rdata` (R86, R87). -/
def Line.records : Line → Bool
  | .rd _ => true
  | .waitIdle => true
  | .reset => false
  | .wr _ _ => false
  | .unit _ => false
  | .sink _ => false
  | .idle _ => false
  | .cycle _ => false

/-- What the host records in a cycle (R86). -/
def scriptReads (b : Block) (p : PortIn) : List Line → List Word
  | [] => []
  | l :: _ => if l.records then [cfgView p.cfgAddr b] else []

/-- The lines from the one that drives the present cycle on: those of the script, or where it has run out
those the environment starts over with (log entry 22). -/
def State.pending (s : State) : List Line :=
  match settleLines s.script with
  | [] => settleLines s.again
  | l :: ls => l :: ls

/-- The sink level in the present cycle, the lines passed on the way to it included. -/
def State.level (s : State) : Bool :=
  match settleLines s.script with
  | [] => settleSink s.again (settleSink s.script s.sinkOn)
  | _ :: _ => settleSink s.script s.sinkOn

/-- The port inputs sampled in the present cycle. -/
def State.present (s : State) : PortIn := scriptPorts s.level s.pending

/-- The environment's and the ports' part of a cycle: the outputs are driven, the script moves on, the host
records. The block is untouched. -/
def State.latch (s : State) : State :=
  { s with
    pins := portOut s.block s.present
    script := scriptRest s.block s.pending
    sinkOn := s.level
    reads := s.reads ++ scriptReads s.block s.present s.pending }

/-! ### Pseudo-instructions (R87) -/

/-- The CTRL word of a MODE and an EN (30_encoding.md R77). -/
def ctrlWord (m : Mode) (en : Bool) : Word := (BitVec.ofBool m.bit ++ BitVec.ofBool en).setWidth 32

/-- `start BIN`, `start TEXT`. -/
def startLines (m : Mode) : List Line := [.wr regCTRL (ctrlWord m true)]

/-- `stop BIN`, `stop TEXT`. -/
def stopLines (m : Mode) : List Line := [.wr regCTRL (ctrlWord m false)]

/-- `config r, p, BIN` and `config r, p, TEXT`. -/
def configLines (r p : Word) (m : Mode) : List Line :=
  [.wr regCTRL (ctrlWord m false), .wr regRATE r, .wr regPERIOD p]

/-- `bytes b0, b1, ...`. -/
def bytesLines (bs : List Byte) : List Line := bs.map .unit

/-- `text "s"`: the ASCII code of each character (log entry 15 for a character without one). -/
def textLines (cs : List Char) : List Line := cs.map fun c => .unit (BitVec.ofNat 8 c.toNat)

/-- `drain`. -/
def drainLines : List Line := [.sink true, .waitIdle]

/-! ### The host's sequences -/

/-- The boot sequence (70_reset_and_hazards.md R193), without its optional read. -/
def bootLines (r p : Word) (m : Mode) : List Line :=
  [.reset, .wr regRATE r, .wr regPERIOD p] ++ startLines m

/-- Reconfiguration between runs (R194). -/
def reconfigureLines (r p : Word) (old new : Mode) : List Line :=
  stopLines old ++ [.waitIdle] ++ configLines r p new ++ startLines new

/-- An input offered `k` times over by a repeating source (R213). -/
def repeatLines (k : Nat) (bs : List Byte) : List Line := (List.replicate k (bytesLines bs)).flatten

/-- A source that, once the script has run out, offers its input from the start for ever
(60_exceptions.md R181, 70_reset_and_hazards.md R209, R213); an empty input is no offer for ever (R208). -/
def State.repeatInput (bs : List Byte) (s : State) : State := { s with again := bytesLines bs }

/-- The PERIOD a host writes for its parsed `-p` (R214): malformed is 0, a value PERIOD holds is itself, any
other is `HOST_PERIOD_MAP`'s (log entry 11). -/
def hostPeriod : Option Int → Word
  | none => 0#32
  | some z => if 0 ≤ z ∧ z < 2 ^ 32 then BitVec.ofInt 32 z else Config.hostPeriodMap z

end Sys2Proof.Machine
end

