-- ==== Sys2Proof/Machine/Cycle.lean ====
section
/-! DEFINITION. One clock cycle (00_scope.md R15, 30_encoding.md R70): every side's operation is selected
by the ports and the state before the edge, and the operations run one after another. They write disjoint
state (60_exceptions.md R172), so the order is no matter of the result (log entry 5). -/

namespace Sys2Proof.Machine

/-- The operation a selector selects, if it selects one. -/
def decoded (sel : Selector) : List Instr := (decode sel).toOption.toList

/-- The selectors of the sides other than reset (R70). The LUT is looked up while a unit is held
(42_iq_mapping.md R133). -/
def sideSelectors (b : Block) (p : PortIn) : List Selector :=
  [.c (formC p)] ++ (if b.held then [.l (formL b)] else []) ++ [.e (formE b p), .u (formU b p)]

/-- The operations of a cycle, all selected before the edge: "When `rst` = 1, only RESET takes effect"
(R70). -/
def selected (b : Block) (p : PortIn) : List Instr :=
  match decode (.r (formR p)) with
  | .ok i => [i]
  | .error _ => (sideSelectors b p).flatMap decoded

/-- Run operations in order, stopping at the first fault or refusal. -/
def runOps : List Instr → State → Host.Outcome State Fault Refusal
  | [], s => .next s
  | i :: is, s =>
    match exec i s with
    | .next t => runOps is t
    | .fault r => .fault r
    | .refused r => .refused r

/-- One clock cycle. -/
def cycle (s : State) : Host.Outcome State Fault Refusal :=
  runOps (selected s.block s.present) s.latch

end Sys2Proof.Machine
end

