-- ==== Sys2Proof/Machine/Fetch.lean ====
section
/-! DEFINITION. Placing an operation so that the very next cycle runs it: the block fetches nothing
(10_state.md R37), so the ports of the next cycle, and what its selector reads of the state, are set
(log entry 9). -/

namespace Sys2Proof.Machine

/-- A cycle that drives nothing, at the sink's present level. -/
def State.quietPorts (s : State) : PortIn := undriven s.sinkOn

/-- Put one cycle with the given ports before the script. -/
def State.driveNext (p : PortIn) (s : State) : State := { s with script := .cycle p :: s.script }

/-- The block with no unit held (10_state.md R35). -/
def Block.idleDatapath (b : Block) : Block := b.release

/-- The block holding a TEXT unit of the given symbol, about to offer its first pair. -/
def Block.holdingSymbol (x : Bool) (b : Block) : Block :=
  { b with held := true, unit := (BitVec.ofBool x).setWidth 8, bidx := 0#3, lastidx := 0#3, cnt := 0#45 }

/-- RATE and PERIOD at their reset values where SPS is below 2, so that both values of SLAST exist. -/
def Block.withRoom (b : Block) : Block :=
  if b.sps.toNat < 2 then { b with rate := Config.resetRate, period := Config.resetPeriod } else b

/-- The block holding a BINARY unit at a pair with the given SLAST and ULAST. -/
def Block.holdingAt (slast ulast : Bool) (b : Block) : Block :=
  let b := b.withRoom
  { b with
    held := true
    lastidx := 7#3
    bidx := if ulast then 7#3 else 0#3
    cnt := if slast then b.sps - 1#45 else 0#45 }

/-- The state whose next cycle forms the given selector. -/
def placeSelector (sel : Selector) (s : State) : State :=
  match sel with
  | .c w =>
    s.driveNext
      { s.quietPorts with
        cfgWe := w[35], cfgAddr := w.extractLsb' 32 3, cfgWdata := w.extractLsb' 0 32 }
  | .u w =>
    if w[9] then
      (s.setBlock
          { s.block.idleDatapath with en := true, mode := Mode.ofBit (w[8]) }).driveNext
        { s.quietPorts with inValid := true, inData := w.extractLsb' 0 8 }
    else s.driveNext { s.quietPorts with inData := w.extractLsb' 0 8 }
  | .l w => (s.setBlock (s.block.holdingSymbol (w[0]))).driveNext s.quietPorts
  | .e w =>
    (s.setBlock
        (if w[3] then s.block.holdingAt (w[1]) (w[0])
          else s.block.idleDatapath)).driveNext
      { s.quietPorts with outReady := w[2] }
  | .r w => s.driveNext { s.quietPorts with rst := w[0] }

/-- `placeSelector` for a table word, where it stands for a selector. -/
def placeTableWord (s : State) (nbits w : Nat) : State :=
  match tableSelector nbits w with
  | some sel => placeSelector sel s
  | none => s

end Sys2Proof.Machine
end

