-- ==== Sys2Proof/Machine/Stream.lean ====
section
/-! DEFINITION. The stream function, what the source settles (00_scope.md R7): symbols of a unit
(41_symbol_extraction.md R117) and the output of a sequence of accepted units (43_sample_replication.md
R157). -/

namespace Sys2Proof.Machine

/-- The symbols of one unit (R117). -/
def syms (m : Mode) (d : Byte) : List Bool :=
  match m with
  | .binary =>
    [d[0], d[1], d[2], d[3], d[4], d[5], d[6], d[7]]
  | .text => if d = Config.charOne then [true] else if d = Config.charZero then [false] else []

/-- `expand(m, s, d)` (R157). -/
def expand (m : Mode) (s : Sps) (d : Byte) : List Pair :=
  (syms m d).flatMap fun x => List.replicate s.toNat (lut x)

/-- `Out(u_1..u_n)` (R157). -/
def streamOut (us : List Accepted) : List Pair := us.flatMap fun u => expand u.mode u.sps u.data

/-- The byte stream a sink writes: I then Q of each pair, in transfer order (20_memory.md R53). -/
def byteStream (xs : List Pair) : List Byte := xs.flatMap Pair.bytes

end Sys2Proof.Machine
end

