-- ==== Sys2Proof/Safety.lean ====
section
/-! DEFINITION. The terms claims are stated in: the invariants of 10_state.md R35, the pairs a held unit
still owes, the conformance of 43_sample_replication.md R163, quiescence, and what an operation leaves
alone. -/

namespace Sys2Proof.Machine

/-- The invariants of 10_state.md R35 on one state. -/
structure Block.Inv (b : Block) : Prop where
  /-- "held = 0 -> unit = 0 and bidx = 0 and lastidx = 0 and cnt = 0" -/
  idle : b.held = false → b.unit = 0#8 ∧ b.bidx = 0#3 ∧ b.lastidx = 0#3 ∧ b.cnt = 0#45
  /-- "held = 1 -> SPS != 0 and cnt < SPS and bidx <= lastidx" -/
  counts : b.held = true → b.sps ≠ 0#45 ∧ b.cnt < b.sps ∧ b.bidx ≤ b.lastidx
  /-- "lastidx in {0, 7}", while a unit is held -/
  last : b.held = true → b.lastidx = 0#3 ∨ b.lastidx = 7#3
  /-- "lastidx = 0 -> unit in {0x00, 0x01}", while a unit is held -/
  textUnit : b.held = true → b.lastidx = 0#3 → b.unit = 0x00#8 ∨ b.unit = 0x01#8

/-- The symbols of the held unit after the present one. -/
def Block.laterSyms (b : Block) : List Bool :=
  ((List.range (b.lastidx.toNat + 1)).drop (b.bidx.toNat + 1)).map b.unit.getLsbD

/-- The pairs the held unit still owes: the rest of the present symbol, then SPS of each later one. -/
def Block.due (b : Block) : List Pair :=
  if b.held then
    List.replicate (b.sps.toNat - b.cnt.toNat) (lut b.sym)
      ++ b.laterSyms.flatMap fun x => List.replicate b.sps.toNat (lut x)
  else []

/-- Conformance of the cycle model (43_sample_replication.md R163): the pairs transferred, followed by the
pairs still due, are `Out` of the accepted units. -/
def State.Conforms (s : State) : Prop := s.taken ++ s.block.due = streamOut s.accepted

/-- No line of the script resets the block. -/
def noReset : List Line → Bool
  | [] => true
  | .reset :: _ => false
  | .cycle p :: ls => !p.rst && noReset ls
  | _ :: ls => noReset ls

/-- Every cycle from now on, without end, has ports that meet `P`: the script, then the lines that start
over when it has run out, and the ports where no line is left. -/
def State.Drives (P : PortIn → Prop) (s : State) : Prop :=
  P (undriven s.sinkOn) ∧ ∃ ps qs : List PortIn,
    s.script = ps.map .cycle ∧ s.again = qs.map .cycle ∧ ∀ p ∈ ps ++ qs, P p

/-- Quiescent (70_reset_and_hazards.md R207): nothing held, and no unit offered in the same cycle. -/
def State.quiescent (s : State) : Bool := !s.block.held && !s.present.inValid

/-- The output transfer of a cycle (00_scope.md R18): valid and ready both 1. -/
def State.outFires (s : State) : Bool := outValid s.block s.present && s.present.outReady

/-- The input transfer of a cycle (00_scope.md R18). -/
def State.inFires (s : State) : Bool := s.present.inValid && inReady s.block s.present

/-- The environment's script, sink level and reads are as before. -/
structure State.SameBench (s t : State) : Prop where
  script : t.script = s.script
  again : t.again = s.again
  sinkOn : t.sinkOn = s.sinkOn
  reads : t.reads = s.reads

/-- No transfer was recorded on either stream. -/
structure State.SameStreams (s t : State) : Prop where
  accepted : t.accepted = s.accepted
  taken : t.taken = s.taken

/-- The registers the configuration side alone writes (40_configuration.md R108). -/
structure Block.SameConfig (b c : Block) : Prop where
  en : c.en = b.en
  mode : c.mode = b.mode
  rate : c.rate = b.rate
  period : c.period = b.period

/-- The registers the input and output sides alone write (43_sample_replication.md R151). -/
structure Block.SameDatapath (b c : Block) : Prop where
  held : c.held = b.held
  unit : c.unit = b.unit
  bidx : c.bidx = b.bidx
  lastidx : c.lastidx = b.lastidx
  cnt : c.cnt = b.cnt

/-- The configuration registers after an edge without reset, read off R101 to R107: WE and ADDR pick the
register, LOCKED is the value before the edge. -/
def Block.nextConfig (b : Block) (p : PortIn) : Block :=
  { b with
    en := if p.cfgWe && p.cfgAddr == 0#3 then p.cfgWdata[0] else b.en
    mode := if p.cfgWe && p.cfgAddr == 0#3 && !(b.en || b.held) then Mode.ofBit (p.cfgWdata[1]) else b.mode
    rate := if p.cfgWe && p.cfgAddr == 1#3 && !(b.en || b.held) then p.cfgWdata else b.rate
    period := if p.cfgWe && p.cfgAddr == 2#3 && !(b.en || b.held) then p.cfgWdata else b.period }

/-- The block after an edge, every rule reading the state before the edge and all writes committing
together (00_scope.md R15): reset R190; configuration R101 to R107; output R151 to R156 while a unit is
held, input R110 to R116 while none is. -/
def Block.next (b : Block) (p : PortIn) : Block :=
  let c := b.nextConfig p
  if p.rst then Block.reset
  else if b.held then
    if !p.outReady then c
    else if b.cnt.toNat + 1 ≠ b.sps.toNat then { c with cnt := b.cnt + 1#45 }
    else if b.bidx ≠ b.lastidx then { c with cnt := 0#45, bidx := b.bidx + 1#3 }
    else { c with held := false, unit := 0#8, bidx := 0#3, lastidx := 0#3, cnt := 0#45 }
  else if p.inValid && b.en && b.sps != 0#45 then
    match b.mode with
    | .binary => { c with held := true, unit := p.inData, bidx := 0#3, lastidx := 7#3, cnt := 0#45 }
    | .text =>
      if p.inData = 0x31#8 then
        { c with held := true, unit := 0x01#8, bidx := 0#3, lastidx := 0#3, cnt := 0#45 }
      else if p.inData = 0x30#8 then
        { c with held := true, unit := 0x00#8, bidx := 0#3, lastidx := 0#3, cnt := 0#45 }
      else c
  else c

/-- How many cycles of a schedule have the sink ready. -/
def readyCycles (ps : List PortIn) : Nat := ps.countP (·.outReady)

/-- `k` cycles of the machine. -/
def steps (k : Nat) (s : State) : Host.Outcome State Fault Refusal := Sys2Proof.core.run k s

end Sys2Proof.Machine
end

