-- ==== Sys2Proof/Certificates/Slice0/Obligations.lean ====
section
/-! DEFINITION. The statements for the provers, each from the rules of spec/ its docstring names. -/

open Sys2Proof Sys2Proof.Machine

/-! ### Reset -/

/-- 10_state.md R44: every element's value after a reset edge, and the derived values. -/
def Obligations.ResetStateHasTheSpecValues : Prop :=
  let b := State.reset.block
  b.en = false ∧ b.mode = .binary ∧ b.rate = 0x00989680#32 ∧ b.period = 0x0000007F#32 ∧ b.held = false
    ∧ b.unit = 0x00#8 ∧ b.bidx = 0#3 ∧ b.lastidx = 0#3 ∧ b.cnt = 0#45
    ∧ b.sps = 1270#45 ∧ b.locked = false ∧ b.busy = false ∧ b.spsZero = false

/-- 70_reset_and_hazards.md R190, R191: RESET gives every element its reset value; in a cycle with
`rst` = 1 no other write takes effect, nothing transfers, and the ports are as R191 says. -/
def Obligations.ResetRestoresEveryElement : Prop :=
  decode (.r 1#1) = .ok .reset ∧ decode (.r 0#1) = .error .selectsNothing ∧
  (∀ s : State, ∃ t, exec .reset s = .next t
    ∧ t.block.en = false ∧ t.block.mode = .binary ∧ t.block.rate = 10000000#32 ∧ t.block.period = 127#32
    ∧ t.block.held = false ∧ t.block.unit = 0#8 ∧ t.block.bidx = 0#3 ∧ t.block.lastidx = 0#3
    ∧ t.block.cnt = 0#45 ∧ t.pins = s.pins ∧ s.SameBench t ∧ s.SameStreams t) ∧
  (∀ s : State, s.present.rst = true → ∃ t, step s = .next t
    ∧ t.block = Block.reset ∧ s.SameStreams t
    ∧ t.pins.inReady = false ∧ t.pins.outValid = false
    ∧ t.pins.cfgRdata = cfgView s.present.cfgAddr s.block
    ∧ t.pins.out = (if s.block.held then lut s.block.sym else { i := 0#8, q := 0#8 }))

/-- 70_reset_and_hazards.md R192: whatever the block holds before its first reset edge, one or more
cycles with `rst` = 1 leave it at its reset values. -/
def Obligations.ResetCyclesFromAnyStateLeaveTheResetValues : Prop :=
  ∀ (n : Nat) (ls : List Line) (s : State), s.script = List.replicate (n + 1) .reset ++ ls →
    ∃ t, steps (n + 1) s = .next t ∧ t.block = Block.reset ∧ t.script = ls ∧ s.SameStreams t

/-! ### Configuration operations -/

/-- 40_configuration.md R100: the view of every address, driven in every cycle, and the frame of CFG_RD.
`SPS` is written here as its value, not through the model's slices. -/
def Obligations.CfgRdReturnsTheViewOfItsAddress : Prop :=
  (∀ (a : CfgAddr) (s : State), ∃ t, exec (.cfgRd a) s = .next t
    ∧ t.block = s.block ∧ s.SameBench t ∧ s.SameStreams t
    ∧ t.pins.inReady = s.pins.inReady ∧ t.pins.outValid = s.pins.outValid ∧ t.pins.out = s.pins.out
    ∧ t.pins.cfgRdata.toNat =
        if a.toNat = 0 then 2 * s.block.mode.bit.toNat + s.block.en.toNat
        else if a.toNat = 1 then s.block.rate.toNat
        else if a.toNat = 2 then s.block.period.toNat
        else if a.toNat = 3 then s.block.sps.toNat % 2 ^ 32
        else if a.toNat = 4 then s.block.sps.toNat / 2 ^ 32
        else if a.toNat = 5 then
          4 * (decide (s.block.sps.toNat = 0)).toNat + 2 * (s.block.en || s.block.held).toNat
            + s.block.held.toNat
        else 0) ∧
  (∀ (a : CfgAddr) (v : Word), decode (.c (0#1 ++ a ++ v)) = .ok (.cfgRd a)) ∧
  (∀ s t : State, step s = .next t → t.pins.cfgRdata = cfgView s.present.cfgAddr s.block)

/-- 40_configuration.md R101. -/
def Obligations.CfgWrCtrlWritesEnAlwaysAndModeWhileUnlocked : Prop :=
  (∀ v : Word, decode (.c (0b1000#4 ++ v)) = .ok (.cfgWrCtrl v)) ∧
  ∀ (v : Word) (s : State), ∃ t, exec (.cfgWrCtrl v) s = .next t
    ∧ t.block = { s.block with
        en := v.getLsbD 0
        mode := if s.block.en || s.block.held then s.block.mode
          else if v.getLsbD 1 then .text else .binary }
    ∧ t.pins = { s.pins with cfgRdata := cfgView 0#3 s.block } ∧ s.SameBench t ∧ s.SameStreams t

/-- 40_configuration.md R102. -/
def Obligations.CfgWrRateWritesRateWhileUnlocked : Prop :=
  (∀ v : Word, decode (.c (0b1001#4 ++ v)) = .ok (.cfgWrRate v)) ∧
  ∀ (v : Word) (s : State), ∃ t, exec (.cfgWrRate v) s = .next t
    ∧ t.block = (if s.block.en || s.block.held then s.block else { s.block with rate := v })
    ∧ (s.block.en = false → s.block.held = false →
        t.block.sps.toNat = s.block.period.toNat * v.toNat / 1000000)
    ∧ t.pins = { s.pins with cfgRdata := s.block.rate } ∧ s.SameBench t ∧ s.SameStreams t

/-- 40_configuration.md R103. -/
def Obligations.CfgWrPeriodWritesPeriodWhileUnlocked : Prop :=
  (∀ v : Word, decode (.c (0b1010#4 ++ v)) = .ok (.cfgWrPeriod v)) ∧
  ∀ (v : Word) (s : State), ∃ t, exec (.cfgWrPeriod v) s = .next t
    ∧ t.block = (if s.block.en || s.block.held then s.block else { s.block with period := v })
    ∧ (s.block.en = false → s.block.held = false →
        t.block.sps.toNat = v.toNat * s.block.rate.toNat / 1000000)
    ∧ t.pins = { s.pins with cfgRdata := s.block.period } ∧ s.SameBench t ∧ s.SameStreams t

/-- 40_configuration.md R104 to R107: a write of a read-only or unmapped address writes no state; and no
operation but EMIT_UNIT_END and RESET clears `held` (R106). -/
def Obligations.WritesOfReadOnlyAndUnmappedAddressesAreIgnored : Prop :=
  (∀ v : Word, decode (.c (0b1011#4 ++ v)) = .ok (.cfgWrSpsLo v)
    ∧ decode (.c (0b1100#4 ++ v)) = .ok (.cfgWrSpsHi v)
    ∧ decode (.c (0b1101#4 ++ v)) = .ok (.cfgWrStatus v)
    ∧ decode (.c (0b1110#4 ++ v)) = .ok (.cfgWrUnmapped 0#1 v)
    ∧ decode (.c (0b1111#4 ++ v)) = .ok (.cfgWrUnmapped 1#1 v)) ∧
  (∀ (v : Word) (s : State),
    exec (.cfgWrSpsLo v) s = .next { s with pins := { s.pins with cfgRdata := cfgView 3#3 s.block } }
    ∧ exec (.cfgWrSpsHi v) s = .next { s with pins := { s.pins with cfgRdata := cfgView 4#3 s.block } }
    ∧ exec (.cfgWrStatus v) s = .next { s with pins := { s.pins with cfgRdata := cfgView 5#3 s.block } }
    ∧ ∀ b : BitVec 1, exec (.cfgWrUnmapped b v) s = .next { s with pins := { s.pins with cfgRdata := 0#32 } }) ∧
  ∀ (i : Instr) (s t : State), exec i s = .next t → s.block.held = true → t.block.held = false →
    i = .emitUnitEnd ∨ i = .reset

/-- 40_configuration.md R108: the configuration side writes EN, MODE, RATE and PERIOD only, and drives
`cfg_rdata` only. -/
def Obligations.ConfigurationOperationsLeaveTheDatapathAlone : Prop :=
  ∀ (w : BitVec 36) (s t : State), exec (decodeC w) s = .next t →
    s.block.SameDatapath t.block ∧ s.SameBench t ∧ s.SameStreams t
    ∧ t.pins = { s.pins with cfgRdata := t.pins.cfgRdata }

/-- 40_configuration.md R108, 60_exceptions.md R172: what a cycle leaves in the datapath depends on no
configuration port, and what it leaves in the configuration registers on no stream port. -/
def Obligations.ConfigurationAndStreamSidesDoNotInterfere : Prop :=
  ∀ s s' t t' : State, s.block = s'.block → s.present.rst = false → s'.present.rst = false →
    step s = .next t → step s' = .next t' →
    (s.present.inValid = s'.present.inValid → s.present.inData = s'.present.inData →
      s.present.outReady = s'.present.outReady → t.block.SameDatapath t'.block)
    ∧ (s.present.cfgWe = s'.present.cfgWe → s.present.cfgAddr = s'.present.cfgAddr →
      s.present.cfgWdata = s'.present.cfgWdata → t.block.SameConfig t'.block)

/-- 20_memory.md R59, 70_reset_and_hazards.md R196: a write in cycle t is not seen by the read of cycle t
and is seen by a read of cycle t+1. -/
def Obligations.AWrittenRegisterReadsBackFromTheNextCycle : Prop :=
  ∀ s t : State, step s = .next t → s.present.rst = false → s.present.cfgWe = true →
    t.pins.cfgRdata = cfgView s.present.cfgAddr s.block
    ∧ (s.block.en = false → s.block.held = false →
        (s.present.cfgAddr = 1#3 → cfgView 1#3 t.block = s.present.cfgWdata)
        ∧ (s.present.cfgAddr = 2#3 → cfgView 2#3 t.block = s.present.cfgWdata)
        ∧ (s.present.cfgAddr = 0#3 → (cfgView 0#3 t.block).toNat = s.present.cfgWdata.toNat % 4))

/-! ### Input operations -/

/-- 41_symbol_extraction.md R112, with the hold write of R111. -/
def Obligations.UnitBinHoldsTheByte : Prop :=
  (∀ d : Byte, decode (.u (0b10#2 ++ d)) = .ok (.unitBin d)) ∧
  ∀ (d : Byte) (s : State), ∃ t, exec (.unitBin d) s = .next t
    ∧ t.block = (if s.block.sps.toNat = 0 then s.block
        else { s.block with held := true, unit := d, bidx := 0#3, lastidx := 7#3, cnt := 0#45 })
    ∧ t.accepted = s.accepted ++ [{ mode := .binary, sps := s.block.sps, data := d }]
    ∧ t.taken = s.taken ∧ t.pins = s.pins ∧ s.SameBench t

/-- 41_symbol_extraction.md R113 and R114, with the hold write of R111. -/
def Obligations.TextSymbolCharactersHoldOneSymbol : Prop :=
  decode (.u 0b1100110001#10) = .ok .unitTxtOne ∧ decode (.u 0b1100110000#10) = .ok .unitTxtZero ∧
  ∀ s : State,
    (∃ t, exec .unitTxtOne s = .next t
      ∧ t.block = (if s.block.sps.toNat = 0 then s.block
          else { s.block with held := true, unit := 1#8, bidx := 0#3, lastidx := 0#3, cnt := 0#45 })
      ∧ t.accepted = s.accepted ++ [{ mode := .text, sps := s.block.sps, data := 0x31#8 }]
      ∧ t.taken = s.taken ∧ t.pins = s.pins ∧ s.SameBench t)
    ∧ (∃ t, exec .unitTxtZero s = .next t
      ∧ t.block = (if s.block.sps.toNat = 0 then s.block
          else { s.block with held := true, unit := 0#8, bidx := 0#3, lastidx := 0#3, cnt := 0#45 })
      ∧ t.accepted = s.accepted ++ [{ mode := .text, sps := s.block.sps, data := 0x30#8 }]
      ∧ t.taken = s.taken ∧ t.pins = s.pins ∧ s.SameBench t)

/-- 41_symbol_extraction.md R115 and R116: a skipped byte is consumed without a datapath write; without a
transfer, that is with `in_valid` = 0, EN = 0 or `held` = 1, the input side writes nothing. -/
def Obligations.SkippedBytesAndNoTransferWriteNoBlockState : Prop :=
  (∀ d : Byte, d ≠ 0x31#8 → d ≠ 0x30#8 → decode (.u (0b11#2 ++ d)) = .ok (.unitTxtSkip d)) ∧
  (∀ x : BitVec 9, decode (.u (0#1 ++ x)) = .ok .inNone) ∧
  (∀ (b : Block) (p : PortIn), p.inValid = false ∨ b.en = false ∨ b.held = true →
    decode (.u (formU b p)) = .ok .inNone) ∧
  ∀ s : State,
    exec .inNone s = .next s ∧
    ∀ d : Byte, ∃ t, exec (.unitTxtSkip d) s = .next t ∧ t.block = s.block
      ∧ t.accepted = s.accepted ++ [{ mode := .text, sps := s.block.sps, data := d }]
      ∧ t.taken = s.taken ∧ t.pins = s.pins ∧ s.SameBench t

/-- 41_symbol_extraction.md R110: the input-side dispatch. -/
def Obligations.InputSideDispatchesOnFireModeAndData : Prop :=
  ∀ (b : Block) (p : PortIn), p.rst = false →
    decode (.u (formU b p)) = .ok
      (if (p.inValid && (b.en && !b.held)) = false then .inNone
        else if b.mode = .binary then .unitBin p.inData
        else if p.inData = 0x31#8 then .unitTxtOne
        else if p.inData = 0x30#8 then .unitTxtZero
        else .unitTxtSkip p.inData)

/-- 41_symbol_extraction.md R118: the held unit's symbols are those of the unit accepted, and a unit
without symbols, or any unit while SPS is 0, holds nothing. -/
def Obligations.TheHeldUnitAgreesWithTheSymbolFunction : Prop :=
  ∀ s t : State, step s = .next t → s.inFires = true →
    (s.block.sps.toNat ≠ 0 → syms s.block.mode s.present.inData ≠ [] →
      t.block.held = true ∧ t.block.bidx = 0#3 ∧ t.block.cnt = 0#45
      ∧ (List.range (t.block.lastidx.toNat + 1)).map t.block.unit.getLsbD
          = syms s.block.mode s.present.inData)
    ∧ (s.block.sps.toNat = 0 ∨ syms s.block.mode s.present.inData = [] → t.block.held = false)

/-! ### The LUT -/

/-- 42_iq_mapping.md R130 to R132: both entries, combinational. -/
def Obligations.LutOperationsDriveTheTwoEntries : Prop :=
  decode (.l 1#1) = .ok .mapOne ∧ decode (.l 0#1) = .ok .mapZero ∧
  lut true = { i := 0x7F#8, q := 0x00#8 } ∧ lut false = { i := 0x00#8, q := 0x00#8 } ∧
  (lut true).data = 0x007F#16 ∧ (lut false).data = 0x0000#16 ∧
  ∀ s : State,
    exec .mapOne s = .next { s with pins := { s.pins with out := { i := 0x7F#8, q := 0x00#8 } } }
    ∧ exec .mapZero s = .next { s with pins := { s.pins with out := { i := 0x00#8, q := 0x00#8 } } }

/-- 42_iq_mapping.md R134, 30_encoding.md R76: no step transfers a pair other than the two of the LUT; Q is
always silent. -/
def Obligations.EveryTransferredPairIsALutEntry : Prop :=
  ∀ s t : State, (∀ x ∈ s.taken, x.q = 0#8 ∧ (x.i = 127#8 ∨ x.i = 0#8)) → step s = .next t →
    ∀ x ∈ t.taken, x.q = 0#8 ∧ (x.i = 127#8 ∨ x.i = 0#8)

/-- 20_memory.md R53, 30_encoding.md R76: packing, byte order and sign of the pairs. -/
def Obligations.PairsPackQAboveIAndSerialiseIFirst : Prop :=
  ∀ x : Pair, x.data.toNat = 256 * x.q.toNat + x.i.toNat ∧ x.bytes = [x.i, x.q]
    ∧ x.data.extractLsb' 0 8 = x.i ∧ x.data.extractLsb' 8 8 = x.q
    ∧ (lut true).i.toInt = 127 ∧ (lut true).q.toInt = 0 ∧ (lut false).i.toInt = 0 ∧ (lut false).q.toInt = 0

/-! ### Output operations -/

/-- 43_sample_replication.md R155 and R156: nothing is written; the offer of each. -/
def Obligations.IdleAndStalledOutputsWriteNoState : Prop :=
  (∀ x : BitVec 3, decode (.e (0#1 ++ x)) = .ok .outIdle) ∧
  (∀ x : BitVec 2, decode (.e (0b10#2 ++ x)) = .ok .outStall) ∧
  ∀ s : State,
    exec .outIdle s
      = .next { s with pins := { s.pins with outValid := false, out := { i := 0#8, q := 0#8 } } }
    ∧ exec .outStall s
      = .next { s with pins := { s.pins with
          outValid := true
          out := { i := if s.block.unit.getLsbD s.block.bidx.toNat then 127#8 else 0#8, q := 0#8 } } }

/-- 43_sample_replication.md R152. -/
def Obligations.EmitRepeatTransfersAPairAndCounts : Prop :=
  (∀ x : BitVec 1, decode (.e (0b110#3 ++ x)) = .ok .emitRepeat) ∧
  ∀ s : State, ∃ t, exec .emitRepeat s = .next t
    ∧ t.block = { s.block with cnt := s.block.cnt + 1#45 }
    ∧ t.pins.out = { i := if s.block.unit.getLsbD s.block.bidx.toNat then 127#8 else 0#8, q := 0#8 }
    ∧ t.taken = s.taken ++ [t.pins.out] ∧ t.accepted = s.accepted
    ∧ t.pins.outValid = true ∧ t.pins.inReady = s.pins.inReady ∧ t.pins.cfgRdata = s.pins.cfgRdata
    ∧ s.SameBench t

/-- 43_sample_replication.md R153. -/
def Obligations.EmitSymbolEndTransfersAPairAndAdvances : Prop :=
  decode (.e 0b1110#4) = .ok .emitSymbolEnd ∧
  ∀ s : State, ∃ t, exec .emitSymbolEnd s = .next t
    ∧ t.block = { s.block with cnt := 0#45, bidx := s.block.bidx + 1#3 }
    ∧ t.pins.out = { i := if s.block.unit.getLsbD s.block.bidx.toNat then 127#8 else 0#8, q := 0#8 }
    ∧ t.taken = s.taken ++ [t.pins.out] ∧ t.accepted = s.accepted
    ∧ t.pins.outValid = true ∧ t.pins.inReady = s.pins.inReady ∧ t.pins.cfgRdata = s.pins.cfgRdata
    ∧ s.SameBench t

/-- 43_sample_replication.md R154. -/
def Obligations.EmitUnitEndTransfersAPairAndReleases : Prop :=
  decode (.e 0b1111#4) = .ok .emitUnitEnd ∧
  ∀ s : State, ∃ t, exec .emitUnitEnd s = .next t
    ∧ t.block = { s.block with held := false, unit := 0#8, bidx := 0#3, lastidx := 0#3, cnt := 0#45 }
    ∧ t.block.busy = false ∧ (s.block.en = false → t.block.locked = false)
    ∧ t.pins.out = { i := if s.block.unit.getLsbD s.block.bidx.toNat then 127#8 else 0#8, q := 0#8 }
    ∧ t.taken = s.taken ++ [t.pins.out] ∧ t.accepted = s.accepted
    ∧ t.pins.outValid = true ∧ t.pins.inReady = s.pins.inReady ∧ t.pins.cfgRdata = s.pins.cfgRdata
    ∧ s.SameBench t

/-- 43_sample_replication.md R151: the output-side dispatch, and the frame of the output side: it writes
the datapath only, and only with HELD = 1. -/
def Obligations.OutputSideDispatchesOnHeldReadyAndLast : Prop :=
  (∀ (b : Block) (p : PortIn), p.rst = false → outValid b p = b.held ∧
    decode (.e (formE b p)) = .ok
      (if b.held = false then .outIdle
        else if p.outReady = false then .outStall
        else if (b.cnt.toNat : Int) ≠ (b.sps.toNat : Int) - 1 then .emitRepeat
        else if b.bidx ≠ b.lastidx then .emitSymbolEnd
        else .emitUnitEnd)) ∧
  ∀ (w : BitVec 4) (s t : State), exec (decodeE w) s = .next t →
    s.block.SameConfig t.block ∧ (w.getLsbD 3 = false → t.block = s.block)

/-- 43_sample_replication.md R161: while a unit is held no counter wraps, in any step. -/
def Obligations.NoCounterWrapsWhileAUnitIsHeld : Prop :=
  ∀ s t : State, s.block.Inv → s.block.held = true → s.present.rst = false → step s = .next t →
    s.block.cnt.toNat < s.block.sps.toNat ∧ s.block.sps.toNat ≤ 18446744065119
    ∧ (t.block.held = true →
        (t.block.cnt.toNat = s.block.cnt.toNat ∧ t.block.bidx = s.block.bidx)
        ∨ (t.block.cnt.toNat = s.block.cnt.toNat + 1 ∧ s.block.cnt.toNat + 1 < s.block.sps.toNat
            ∧ t.block.bidx = s.block.bidx)
        ∨ (t.block.cnt = 0#45 ∧ t.block.bidx.toNat = s.block.bidx.toNat + 1
            ∧ s.block.bidx.toNat + 1 ≤ s.block.lastidx.toNat))

/-! ### Derived values -/

/-- 10_state.md R26: SPS is the exact floor division of the exact product, and never wraps. -/
def Obligations.SpsIsTheExactFlooredProduct : Prop :=
  Block.reset.sps = 1270#45 ∧ ∀ b : Block, b.sps.toNat = b.period.toNat * b.rate.toNat / 1000000
    ∧ b.sps.toNat ≤ 18446744065119
    ∧ (b.period.toNat * b.rate.toNat < 1000000 ↔ b.sps = 0#45)
    ∧ (b.period.toNat * b.rate.toNat = 1000000 → b.sps = 1#45)
    ∧ ((b.period = 0#32 ∨ b.rate = 0#32) → b.sps = 0#45)

/-- 95_test_vectors.md section 2.2: the STATUS values a reachable state shows; 0x5 and 0x7 are not among
them. -/
def Obligations.StatusShowsOnlyTheReachableCombinations : Prop :=
  ∀ b : Block, b.Inv →
    cfgView 5#3 b =
      (if b.held then 3#32
        else if b.en then (if b.sps.toNat = 0 then 6#32 else 2#32)
        else if b.sps.toNat = 0 then 4#32 else 0#32)

/-! ### The cycle -/

/-- 30_encoding.md R70, 00_scope.md R15: a cycle runs the operations its selectors decode to, RESET alone
when `rst` = 1; what it adds around them is the environment's and the ports' part. That the operations run
one after another, and in this order, is the model's choice (log entry 5; R15 commits all writes together),
as is what `latch` does to the environment's fields and `pins` (log entries 1 to 3). -/
def Obligations.AStepRunsTheDecodedOperations : Prop :=
  ∀ s : State,
    (s.present.rst = true → step s = exec .reset s.latch) ∧
    (s.present.rst = false → ∀ ic il ie iu : Instr,
      decode (.c (formC s.present)) = .ok ic → decode (.l (formL s.block)) = .ok il →
      decode (.e (formE s.block s.present)) = .ok ie → decode (.u (formU s.block s.present)) = .ok iu →
      step s = runOps ([ic] ++ (if s.block.held then [il] else []) ++ [ie, iu]) s.latch) ∧
    s.latch.block = s.block ∧ s.SameStreams s.latch ∧ s.latch.pins = portOut s.block s.present

/-- The model's own placement of a table word (log entries 8, 9): the very next cycle runs the operation
the word decodes to. -/
def Obligations.APlacedTableWordRunsInTheNextStep : Prop :=
  ∀ (s : State) (nbits w : Nat) (i : Instr), decodeTableWord nbits w = some i →
    i ∈ selected (s.withFetchWord nbits w).block (s.withFetchWord nbits w).present

/-- 60_exceptions.md R170: no operation and no cycle stops, in any state. -/
def Obligations.NoOperationAndNoStepEverStops : Prop :=
  (∀ (i : Instr) (s : State), ∃ t, exec i s = .next t) ∧ ∀ s : State, ∃ t, step s = .next t

/-- 10_state.md R41 to R43: the output ports of a cycle are the stated functions of the state before the
edge, whatever operations run. -/
def Obligations.OutputPortsAreCombinational : Prop :=
  ∀ s t : State, step s = .next t →
    t.pins.inReady = (!s.present.rst && s.block.en && !s.block.held)
    ∧ t.pins.outValid = (!s.present.rst && s.block.held)
    ∧ t.pins.out = (if s.block.held then lut (s.block.unit.getLsbD s.block.bidx.toNat)
        else { i := 0#8, q := 0#8 })
    ∧ t.pins.out.data = t.pins.out.q ++ t.pins.out.i

/-- 00_scope.md R15, 20_memory.md R60, 60_exceptions.md R172: running the sides one after another is
committing all their writes together, each computed from the state before the edge. -/
def Obligations.ACycleCommitsAllSidesFromTheStateBeforeTheEdge : Prop :=
  ∀ s t : State, step s = .next t → t.block = s.block.next s.present

/-- 00_scope.md R18, 60_exceptions.md R172: a unit is recorded exactly in a cycle with an input transfer, a
pair exactly in one with an output transfer, and never both. -/
def Obligations.TransfersHappenExactlyOnHandshakesAndNeverTogether : Prop :=
  ∀ s t : State, step s = .next t →
    t.accepted = s.accepted ++ (if s.inFires then
        [{ mode := s.block.mode, sps := s.block.sps, data := s.present.inData }] else [])
    ∧ t.taken = s.taken ++ (if s.outFires then [lut s.block.sym] else [])
    ∧ ¬ (s.inFires = true ∧ s.outFires = true)

/-! ### Invariants -/

/-- 10_state.md R35 at reset. -/
def Obligations.ResetStateMeetsTheDatapathInvariant : Prop := State.reset.block.Inv

/-- 10_state.md R35: every step, reset and configuration writes included, keeps the invariant. -/
def Obligations.EveryStepKeepsTheDatapathInvariant : Prop :=
  ∀ s t : State, s.block.Inv → step s = .next t → t.block.Inv

/-- 10_state.md R25: RATE, PERIOD and MODE, hence SPS, do not change while the block is locked. -/
def Obligations.LockedConfigurationDoesNotChange : Prop :=
  ∀ s t : State, (s.block.en || s.block.held) = true → s.present.rst = false → step s = .next t →
    t.block.rate = s.block.rate ∧ t.block.period = s.block.period ∧ t.block.mode = s.block.mode
    ∧ t.block.sps = s.block.sps

/-- 10_state.md R29: `held` is cleared only by EMIT_UNIT_END and by reset, and set only by the accept
rules. -/
def Obligations.HeldChangesOnlyByAcceptUnitEndAndReset : Prop :=
  ∀ s t : State, step s = .next t →
    (s.block.held = true → t.block.held = false →
      s.present.rst = true ∨ decode (.e (formE s.block s.present)) = .ok .emitUnitEnd)
    ∧ (s.block.held = false → t.block.held = true →
      s.present.rst = false ∧ s.inFires = true ∧ s.block.sps ≠ 0#45
        ∧ syms s.block.mode s.present.inData ≠ [])

/-! ### The stream function -/

/-- 43_sample_replication.md R163, one cycle: transferred pairs and due pairs together stay `Out` of the
accepted units. -/
def Obligations.EveryStepWithoutResetKeepsConformance : Prop :=
  ∀ s t : State, s.block.Inv → s.Conforms → s.present.rst = false → step s = .next t → t.Conforms

/-- 43_sample_replication.md R163: for every schedule, the transferred pairs are a prefix of `Out` of the
accepted units, and the whole of it when no unit is held. -/
def Obligations.TransferredPairsAreAPrefixOfTheStreamFunction : Prop :=
  ∀ (ls as : List Line) (on : Bool) (k : Nat) (t : State), noReset ls = true → noReset as = true →
    steps k { State.reset with script := ls, again := as, sinkOn := on } = .next t →
    t.taken <+: streamOut t.accepted ∧ (t.block.held = false → t.taken = streamOut t.accepted)

/-- 43_sample_replication.md R159: the pairs of a finished run depend on the accepted units and their
configuration alone, not on the stalls and gaps of source and sink. -/
def Obligations.FinishedRunsWithTheSameUnitsTransferTheSamePairs : Prop :=
  ∀ (ls as ls' as' : List Line) (on on' : Bool) (k k' : Nat) (t t' : State),
    noReset ls = true → noReset as = true → noReset ls' = true → noReset as' = true →
    steps k { State.reset with script := ls, again := as, sinkOn := on } = .next t →
    steps k' { State.reset with script := ls', again := as', sinkOn := on' } = .next t' →
    t.accepted = t'.accepted → t.block.held = false → t'.block.held = false → t.taken = t'.taken

/-- 43_sample_replication.md R164: a unit just held is released after exactly (L+1)*s output transfers,
whatever the stalls, configuration writes and offers meanwhile. -/
def Obligations.AHeldUnitIsReleasedAfterExactlyItsPairs : Prop :=
  ∀ (s : State) (ps : List PortIn) (p : PortIn) (ls : List Line),
    s.block.Inv → s.block.held = true → s.block.bidx = 0#3 → s.block.cnt = 0#45 →
    s.script = (ps.map Line.cycle) ++ .cycle p :: ls → (∀ q ∈ ps, q.rst = false) →
    p.rst = false → p.outReady = true →
    readyCycles ps + 1 = (s.block.lastidx.toNat + 1) * s.block.sps.toNat →
    ∃ t u, steps ps.length s = .next t ∧ t.block.held = true
      ∧ steps (ps.length + 1) s = .next u ∧ u.block.held = false
      ∧ u.taken.length = s.taken.length + (s.block.lastidx.toNat + 1) * s.block.sps.toNat

/-- 43_sample_replication.md R162: while SPS is 0 no unit is held and no pair transfers. -/
def Obligations.WhileSpsIsZeroNothingIsHeldOrTransferred : Prop :=
  (∀ (m : Mode) (d : Byte), expand m 0#45 d = []) ∧
  ∀ s t : State, s.block.Inv → s.block.sps = 0#45 → step s = .next t →
    t.block.held = false ∧ t.taken = s.taken

/-- 43_sample_replication.md R158. -/
def Obligations.TheExpansionOfAUnitHasSpsPairsPerSymbol : Prop :=
  (∀ (x : Pair) (xs : List Pair), byteStream (x :: xs) = x.i :: x.q :: byteStream xs) ∧
  ∀ (m : Mode) (s : Sps) (d : Byte),
    (expand m s d).length = s.toNat * (syms m d).length
    ∧ (expand .binary s d).length = 8 * s.toNat
    ∧ (expand .text s 0x31#8).length = s.toNat ∧ (expand .text s 0x30#8).length = s.toNat
    ∧ (d ≠ 0x31#8 → d ≠ 0x30#8 → (expand .text s d).length = 0)
    ∧ (byteStream (expand m s d)).length = 2 * (expand m s d).length

/-- 43_sample_replication.md R160: the concatenation law, and k passes of a repeating source. -/
def Obligations.TheStreamFunctionConcatenates : Prop :=
  (∀ us vs : List Accepted, streamOut (us ++ vs) = streamOut us ++ streamOut vs) ∧
  ∀ (us : List Accepted) (l k : Nat), k ≤ l →
    (streamOut (List.replicate l us).flatten).take ((streamOut us).length * k)
      = (List.replicate k (streamOut us)).flatten

/-- 20_memory.md R52, 95_test_vectors.md V1.1: the symbols of a BINARY unit are its bits, least significant
first; at SPS 1 pair k is the LUT entry of bit k. -/
def Obligations.BinarySymbolsAreTheBitsLeastSignificantFirst : Prop :=
  ∀ (d : Byte) (k : Nat), k < 8 →
    (syms .binary d)[k]? = some (decide (d.toNat / 2 ^ k % 2 = 1))
    ∧ (expand .binary 1#45 d)[k]?
        = some { i := if d.toNat / 2 ^ k % 2 = 1 then 127#8 else 0#8, q := 0#8 }

/-! ### Hazards -/

/-- 70_reset_and_hazards.md R201: an offered pair that is not taken is offered unchanged in the next cycle,
unless `rst` = 1. -/
def Obligations.AnOfferedPairIsStableUntilTaken : Prop :=
  ∀ s t u : State, step s = .next t → step t = .next u → t.pins.outValid = true →
    s.present.outReady = false → t.present.rst = false →
    u.pins.outValid = true ∧ u.pins.out = t.pins.out

/-- 70_reset_and_hazards.md R198, 10_state.md R21: with EN = 0 no unit is accepted; a held unit goes on;
LOCKED stays 1 until it is released. -/
def Obligations.ADisabledBlockDrainsItsUnit : Prop :=
  ∀ s t : State, s.block.en = false → s.present.rst = false → step s = .next t →
    t.accepted = s.accepted
    ∧ (s.block.held = true → s.present.outReady = true → t.taken = s.taken ++ [lut s.block.sym])
    ∧ (s.block.held = true → t.block.locked = true
        ∨ decode (.e (formE s.block s.present)) = .ok .emitUnitEnd)

/-- 70_reset_and_hazards.md R200: the cycle after a unit's last pair offers nothing, and a new unit may
transfer in it. -/
def Obligations.OneCycleWithoutAnOfferFollowsEachUnit : Prop :=
  ∀ s t : State, step s = .next t → s.present.rst = false →
    decode (.e (formE s.block s.present)) = .ok .emitUnitEnd →
    ∀ p : PortIn, outValid t.block p = false ∧ inReady t.block p = (!p.rst && t.block.en)

/-- 70_reset_and_hazards.md R197: a unit can transfer in the cycle after the write that sets EN, and its
first pair is offered in the cycle after that. -/
def Obligations.StartLatencyIsOneCycleToAcceptAndOneToOffer : Prop :=
  ∀ s t u v : State, s.block.held = false → s.present.rst = false → s.present.cfgWe = true →
    s.present.cfgAddr = 0#3 → s.present.cfgWdata.getLsbD 0 = true → s.block.en = false →
    step s = .next t → t.present.rst = false → t.present.inValid = true → step t = .next u →
    u.accepted.length = t.accepted.length + 1 ∧ t.pins.outValid = false ∧ u.pins.outValid = false
    ∧ (t.block.sps ≠ 0#45 → syms t.block.mode t.present.inData ≠ [] → u.present.rst = false →
        step u = .next v → v.pins.outValid = true)

/-- 60_exceptions.md R180: an idle block changes only through configuration writes or reset. -/
def Obligations.AnIdleBlockKeepsItsState : Prop :=
  ∀ s t : State, s.block.en = false → s.block.held = false → s.present.rst = false →
    s.present.cfgWe = false → step s = .next t → t.block = s.block

/-! ### Runs without end -/

/-- 60_exceptions.md R181, first case: while the sink is never ready a held unit stays held and offered, its
datapath and the pairs taken unchanged, after any number of cycles; each is an OUT_STALL. -/
def Obligations.ASinkThatIsNeverReadyStallsForEver : Prop :=
  ∀ s : State, s.block.held = true → s.Drives (fun p => p.rst = false ∧ p.outReady = false) →
    ∀ k : Nat, ∃ t, steps k s = .next t ∧ s.block.SameDatapath t.block ∧ t.taken = s.taken
      ∧ t.accepted = s.accepted ∧ decode (.e (formE t.block t.present)) = .ok .outStall

/-- 60_exceptions.md R181, second case, 70_reset_and_hazards.md R209, R213: a source that offers its input
from the start again for ever, to an enabled block with SPS not 0 and a ready sink. What it transfers is the
input over and over, in order; the output is unbounded as soon as one unit of the input has symbols. -/
def Obligations.ARepeatingSourceGivesUnboundedOutput : Prop :=
  ∀ (s : State) (cs bs : List Byte), s.block.Inv → s.block.en = true → s.block.sps ≠ 0#45 →
    s.sinkOn = true → s.script = bytesLines cs → s.again = bytesLines bs →
    (∀ k : Nat, ∃ (t : State) (n : Nat), steps k s = .next t
      ∧ t.accepted.map Accepted.data
          <+: s.accepted.map Accepted.data ++ cs ++ (List.replicate n bs).flatten)
    ∧ ((∃ d ∈ bs, syms s.block.mode d ≠ []) →
      ∀ n : Nat, ∃ (k : Nat) (t : State), steps k s = .next t ∧ n ≤ t.taken.length)

/-- 60_exceptions.md R181, third case, 70_reset_and_hazards.md R208: with EN = 1, no unit held and none ever
offered, the block idles with `in_ready` = 1 and produces nothing, after any number of cycles. -/
def Obligations.ASourceThatOffersNothingIdlesForEver : Prop :=
  ∀ s : State, s.block.en = true → s.block.held = false →
    s.Drives (fun p => p.rst = false ∧ p.cfgWe = false ∧ p.inValid = false) →
    ∀ k : Nat, ∃ t, steps k s = .next t ∧ t.block = s.block ∧ t.taken = s.taken
      ∧ t.accepted = s.accepted ∧ inReady t.block t.present = true ∧ t.quiescent = true

/-! ### Encoding -/

/-- 30_encoding.md R82, R85: encoding and decoding agree on every well-formed operation, every operand at
every value. -/
def Obligations.DecodeOfEncodeIsTheOperation : Prop :=
  ∀ i : Instr, i.wellFormed = true → decode (encode i) = .ok i

/-- 30_encoding.md R83, R84: every value of every format matches exactly one row of the map, but for
format R value 0, which matches none; the decoder gives a well-formed operation of that row. -/
def Obligations.EveryWordMatchesExactlyTheRowItDecodesTo : Prop :=
  opcodeTable.length = 21 ∧
  ∀ sel : Selector,
    (sel = .r 0#1 ∧ opcodeTable.all (fun row => !row.selects sel) = true)
    ∨ ∃ i, decode sel = .ok i ∧ i.wellFormed = true ∧ i.row ∈ opcodeTable ∧ i.row.selects sel = true
        ∧ ∀ row ∈ opcodeTable, row.selects sel = true → row = i.row

/-- 30_encoding.md R88: the words of stimulus lines. -/
def Obligations.StimulusLinesFormTheStatedWords : Prop :=
  ∀ (reg : CfgAddr) (v : Word) (d : Byte) (on : Bool) (b : Block),
    formC ((Line.wr reg v).ports on) = 1#1 ++ reg ++ v
    ∧ formC ((Line.wr regRATE 2000000#32).ports on) = 0x9001E8480#36
    ∧ formC ((Line.rd reg).ports on) = 0#1 ++ reg ++ 0#32
    ∧ formC ((Line.rd regSTATUS).ports on) = 0x500000000#36
    ∧ (formU b ((Line.unit d).ports on)).extractLsb' 0 8 = d
    ∧ (formU b ((Line.unit d).ports on)).getLsbD 8 = decide (b.mode = .text)
    ∧ formR (Line.reset.ports on) = 1#1

/-- Words written out from spec/opcode_table.json and 95_test_vectors.md decode to what they stand for. -/
def Obligations.WordsOfTheSpecDecodeAsTheSpecSays : Prop :=
  decode (.c 0x500000000#36) = .ok (.cfgRd 5#3)
  ∧ decode (.c 0x8FFFFFFFF#36) = .ok (.cfgWrCtrl 0xFFFFFFFF#32)
  ∧ decode (.c 0xA00000001#36) = .ok (.cfgWrPeriod 1#32)
  ∧ decode (.u 0x2A5#10) = .ok (.unitBin 0xA5#8) ∧ decode (.u 0x331#10) = .ok .unitTxtOne
  ∧ decode (.u 0x3B1#10) = .ok (.unitTxtSkip 0xB1#8) ∧ decode (.e 0b1010#4) = .ok .outStall
  ∧ decode (.e 0b1101#4) = .ok .emitRepeat ∧ decode (.r 1#1) = .ok .reset

/-! ### The host's sequences -/

/-- 70_reset_and_hazards.md R193: the boot sequence, from any state, ends enabled in the wanted MODE with
the wanted RATE and PERIOD and an empty datapath. -/
def Obligations.TheBootSequenceStartsTheWantedRun : Prop :=
  ∀ (s : State) (r p : Word) (m : Mode) (ls : List Line), s.script = bootLines r p m ++ ls →
    ∃ t, steps 4 s = .next t ∧ t.script = ls
      ∧ t.block = { Block.reset with en := true, mode := m, rate := r, period := p }

/-- 70_reset_and_hazards.md R194: the reconfiguration sequence, begun with no unit held, ends enabled under
the new RATE, PERIOD and MODE. -/
def Obligations.TheReconfigurationSequenceTakesEffect : Prop :=
  ∀ (s : State) (r p : Word) (old new : Mode) (ls : List Line),
    s.block.held = false → s.script = reconfigureLines r p old new ++ ls →
    ∃ t, steps 6 s = .next t ∧ t.script = ls
      ∧ t.block = { s.block with en := true, mode := new, rate := r, period := p }

/-- 30_encoding.md R86: a `unit` line offers its unit until the cycle in which it transfers, and `waitIdle`
reads STATUS until bit 0 is 0. -/
def Obligations.WaitingLinesStayUntilTheirEvent : Prop :=
  ∀ (s t : State) (v : Byte) (ls : List Line), step s = .next t →
    (s.script = .unit v :: ls →
      s.present.inValid = true ∧ s.present.inData = v
      ∧ t.script = (if s.inFires then ls else .unit v :: ls))
    ∧ (s.script = .waitIdle :: ls →
      t.reads = s.reads ++ [cfgView 5#3 s.block]
      ∧ t.script = (if (cfgView 5#3 s.block).getLsbD 0 then .waitIdle :: ls else ls))
end

