-- ==== Sys2Proof/Laws/State.lean ====
section
/-! SUPPORT. What each update of the state leaves in each field, so that no later proof unfolds an
update. -/

namespace Sys2Proof.Machine

section StateUpdates
variable (s : State) (b : Block) (a : CfgAddr) (x : Pair) (v : Bool) (m : Mode) (d : Byte) (p : PortIn)

@[simp] theorem State.setBlock_block : (s.setBlock b).block = b := rfl
@[simp] theorem State.setBlock_pins : (s.setBlock b).pins = s.pins := rfl
@[simp] theorem State.setBlock_script : (s.setBlock b).script = s.script := rfl
@[simp] theorem State.setBlock_again : (s.setBlock b).again = s.again := rfl
@[simp] theorem State.setBlock_sinkOn : (s.setBlock b).sinkOn = s.sinkOn := rfl
@[simp] theorem State.setBlock_reads : (s.setBlock b).reads = s.reads := rfl
@[simp] theorem State.setBlock_accepted : (s.setBlock b).accepted = s.accepted := rfl
@[simp] theorem State.setBlock_taken : (s.setBlock b).taken = s.taken := rfl

@[simp] theorem State.driveRead_block : (s.driveRead a).block = s.block := rfl
@[simp] theorem State.driveRead_pins :
    (s.driveRead a).pins = { s.pins with cfgRdata := cfgView a s.block } := rfl
@[simp] theorem State.driveRead_script : (s.driveRead a).script = s.script := rfl
@[simp] theorem State.driveRead_again : (s.driveRead a).again = s.again := rfl
@[simp] theorem State.driveRead_sinkOn : (s.driveRead a).sinkOn = s.sinkOn := rfl
@[simp] theorem State.driveRead_reads : (s.driveRead a).reads = s.reads := rfl
@[simp] theorem State.driveRead_accepted : (s.driveRead a).accepted = s.accepted := rfl
@[simp] theorem State.driveRead_taken : (s.driveRead a).taken = s.taken := rfl

@[simp] theorem State.drivePair_block : (s.drivePair x).block = s.block := rfl
@[simp] theorem State.drivePair_pins : (s.drivePair x).pins = { s.pins with out := x } := rfl
@[simp] theorem State.drivePair_script : (s.drivePair x).script = s.script := rfl
@[simp] theorem State.drivePair_again : (s.drivePair x).again = s.again := rfl
@[simp] theorem State.drivePair_sinkOn : (s.drivePair x).sinkOn = s.sinkOn := rfl
@[simp] theorem State.drivePair_reads : (s.drivePair x).reads = s.reads := rfl
@[simp] theorem State.drivePair_accepted : (s.drivePair x).accepted = s.accepted := rfl
@[simp] theorem State.drivePair_taken : (s.drivePair x).taken = s.taken := rfl

@[simp] theorem State.driveOut_block : (s.driveOut v x).block = s.block := rfl
@[simp] theorem State.driveOut_pins :
    (s.driveOut v x).pins = { s.pins with outValid := v, out := x } := rfl
@[simp] theorem State.driveOut_script : (s.driveOut v x).script = s.script := rfl
@[simp] theorem State.driveOut_again : (s.driveOut v x).again = s.again := rfl
@[simp] theorem State.driveOut_sinkOn : (s.driveOut v x).sinkOn = s.sinkOn := rfl
@[simp] theorem State.driveOut_reads : (s.driveOut v x).reads = s.reads := rfl
@[simp] theorem State.driveOut_accepted : (s.driveOut v x).accepted = s.accepted := rfl
@[simp] theorem State.driveOut_taken : (s.driveOut v x).taken = s.taken := rfl

@[simp] theorem State.accept_block : (s.accept m d).block = s.block := rfl
@[simp] theorem State.accept_pins : (s.accept m d).pins = s.pins := rfl
@[simp] theorem State.accept_script : (s.accept m d).script = s.script := rfl
@[simp] theorem State.accept_again : (s.accept m d).again = s.again := rfl
@[simp] theorem State.accept_sinkOn : (s.accept m d).sinkOn = s.sinkOn := rfl
@[simp] theorem State.accept_reads : (s.accept m d).reads = s.reads := rfl
@[simp] theorem State.accept_accepted :
    (s.accept m d).accepted = s.accepted ++ [{ mode := m, sps := s.block.sps, data := d }] := rfl
@[simp] theorem State.accept_taken : (s.accept m d).taken = s.taken := rfl

@[simp] theorem State.emit_block : s.emit.block = s.block := rfl
@[simp] theorem State.emit_pins :
    s.emit.pins = { s.pins with outValid := true, out := lut s.block.sym } := rfl
@[simp] theorem State.emit_script : s.emit.script = s.script := rfl
@[simp] theorem State.emit_again : s.emit.again = s.again := rfl
@[simp] theorem State.emit_sinkOn : s.emit.sinkOn = s.sinkOn := rfl
@[simp] theorem State.emit_reads : s.emit.reads = s.reads := rfl
@[simp] theorem State.emit_accepted : s.emit.accepted = s.accepted := rfl
@[simp] theorem State.emit_taken : s.emit.taken = s.taken ++ [lut s.block.sym] := rfl

@[simp] theorem State.latch_block : s.latch.block = s.block := rfl
@[simp] theorem State.latch_pins : s.latch.pins = portOut s.block s.present := rfl
@[simp] theorem State.latch_script : s.latch.script = scriptRest s.block s.pending := rfl
@[simp] theorem State.latch_again : s.latch.again = s.again := rfl
@[simp] theorem State.latch_sinkOn : s.latch.sinkOn = s.level := rfl
@[simp] theorem State.latch_reads :
    s.latch.reads = s.reads ++ scriptReads s.block s.present s.pending := rfl
@[simp] theorem State.latch_accepted : s.latch.accepted = s.accepted := rfl
@[simp] theorem State.latch_taken : s.latch.taken = s.taken := rfl

@[simp] theorem portOut_cfgRdata : (portOut b p).cfgRdata = cfgView p.cfgAddr b := rfl
@[simp] theorem portOut_inReady : (portOut b p).inReady = inReady b p := rfl
@[simp] theorem portOut_outValid : (portOut b p).outValid = outValid b p := rfl
@[simp] theorem portOut_out : (portOut b p).out = if b.held then lut b.sym else silentPair := rfl

@[simp] theorem State.repeatInput_block (bs : List Byte) : (s.repeatInput bs).block = s.block := rfl
@[simp] theorem State.repeatInput_script (bs : List Byte) : (s.repeatInput bs).script = s.script := rfl
@[simp] theorem State.repeatInput_again (bs : List Byte) : (s.repeatInput bs).again = bytesLines bs := rfl

end StateUpdates

section BlockUpdates
variable (b : Block) (w : Word) (u : Byte) (l : SymIdx)

@[simp] theorem Block.nextSample_held : b.nextSample.held = b.held := rfl
@[simp] theorem Block.nextSample_unit : b.nextSample.unit = b.unit := rfl
@[simp] theorem Block.nextSample_bidx : b.nextSample.bidx = b.bidx := rfl
@[simp] theorem Block.nextSample_lastidx : b.nextSample.lastidx = b.lastidx := rfl
@[simp] theorem Block.nextSample_cnt : b.nextSample.cnt = b.cnt + 1#45 := rfl
@[simp] theorem Block.nextSample_sps : b.nextSample.sps = b.sps := rfl

@[simp] theorem Block.nextSymbol_held : b.nextSymbol.held = b.held := rfl
@[simp] theorem Block.nextSymbol_unit : b.nextSymbol.unit = b.unit := rfl
@[simp] theorem Block.nextSymbol_bidx : b.nextSymbol.bidx = b.bidx + 1#3 := rfl
@[simp] theorem Block.nextSymbol_lastidx : b.nextSymbol.lastidx = b.lastidx := rfl
@[simp] theorem Block.nextSymbol_cnt : b.nextSymbol.cnt = 0#45 := rfl
@[simp] theorem Block.nextSymbol_sps : b.nextSymbol.sps = b.sps := rfl

@[simp] theorem Block.release_held : b.release.held = false := rfl
@[simp] theorem Block.release_unit : b.release.unit = 0#8 := rfl
@[simp] theorem Block.release_bidx : b.release.bidx = 0#3 := rfl
@[simp] theorem Block.release_lastidx : b.release.lastidx = 0#3 := rfl
@[simp] theorem Block.release_cnt : b.release.cnt = 0#45 := rfl
@[simp] theorem Block.release_sps : b.release.sps = b.sps := rfl

/-- A locked block keeps its RATE and PERIOD through a write of either (R25). -/
theorem Block.writeRate_of_locked (h : b.locked = true) : b.writeRate w = b := by
  simp [Block.writeRate, h]

@[inherit_doc Block.writeRate_of_locked]
theorem Block.writePeriod_of_locked (h : b.locked = true) : b.writePeriod w = b := by
  simp [Block.writePeriod, h]

/-- A CTRL write touches EN and MODE only. -/
@[simp] theorem Block.writeCtrl_sps : (b.writeCtrl w).sps = b.sps := rfl

/-- `Hold` does nothing while SPS is 0 (R111). -/
theorem Block.hold_of_sps_zero (h : b.sps = 0#45) : b.hold u l = b := by simp [Block.hold, h]

/-- `Hold` loads the datapath while SPS is not 0 (R111). -/
theorem Block.hold_of_sps_ne_zero (h : b.sps ≠ 0#45) :
    b.hold u l = { b with held := true, unit := u, bidx := 0#3, lastidx := l, cnt := 0#45 } := by
  simp [Block.hold, h]

/-- `Hold` leaves RATE and PERIOD, hence SPS, alone. -/
@[simp] theorem Block.hold_sps : (b.hold u l).sps = b.sps := by
  unfold Block.hold
  split <;> rfl

end BlockUpdates

end Sys2Proof.Machine
end

