-- ==== Sys2Proof/Laws/Cycle.lean ====
section
/-! SUPPORT. The fields of the selector words a cycle forms, what a cycle selects, and how operations run
one after another. -/

namespace Sys2Proof.Machine

/-! ### Fields of the selector words (30_encoding.md R71 to R75) -/

section Forms
variable (b : Block) (p : PortIn)

@[simp] theorem formC_we : (formC p)[35] = p.cfgWe := by
  unfold formC
  rw [BitVec.getElem_append, dif_neg (by decide), BitVec.getElem_append]
  simp

@[simp] theorem formC_addr : (formC p).extractLsb' 32 3 = p.cfgAddr := by
  ext i hi
  rw [BitVec.getElem_extractLsb', formC, BitVec.getLsbD_append, BitVec.getLsbD_append]
  simp [hi]

@[simp] theorem formC_wdata : (formC p).extractLsb' 0 32 = p.cfgWdata := by
  ext i hi
  rw [BitVec.getElem_extractLsb', formC, BitVec.getLsbD_append]
  simp [hi]

@[simp] theorem formU_fire : (formU b p)[9] = (p.inValid && inReady b p) := by
  unfold formU
  rw [BitVec.getElem_append, dif_neg (by decide), BitVec.getElem_append]
  simp

@[simp] theorem formU_mode : (formU b p)[8] = b.mode.bit := by
  unfold formU
  rw [BitVec.getElem_append, dif_neg (by decide), BitVec.getElem_append]
  simp

@[simp] theorem formU_data : (formU b p).extractLsb' 0 8 = p.inData := by
  ext i hi
  rw [BitVec.getElem_extractLsb', formU, BitVec.getLsbD_append]
  simp [hi]

@[simp] theorem formL_sym : (formL b)[0] = b.sym := by simp [formL]

@[simp] theorem formE_held : (formE b p)[3] = b.held := by
  unfold formE
  rw [BitVec.getElem_append, dif_neg (by decide), BitVec.getElem_append, dif_neg (by decide),
    BitVec.getElem_append]
  simp

@[simp] theorem formE_ready : (formE b p)[2] = p.outReady := by
  unfold formE
  rw [BitVec.getElem_append, dif_neg (by decide), BitVec.getElem_append, dif_neg (by decide),
    BitVec.getElem_append]
  simp

@[simp] theorem formE_slast : (formE b p)[1] = (b.held && b.slast) := by
  unfold formE
  rw [BitVec.getElem_append, dif_neg (by decide), BitVec.getElem_append]
  simp

@[simp] theorem formE_ulast : (formE b p)[0] = (b.held && b.ulast) := by
  unfold formE
  rw [BitVec.getElem_append]
  simp

@[simp] theorem formR_rst : (formR p)[0] = p.rst := by simp [formR]

end Forms

/-! ### What a cycle selects (30_encoding.md R70) -/

@[simp] theorem decoded_c (w : BitVec 36) : decoded (.c w) = [decodeC w] := rfl
@[simp] theorem decoded_u (w : BitVec 10) : decoded (.u w) = [decodeU w] := rfl
@[simp] theorem decoded_l (w : BitVec 1) : decoded (.l w) = [decodeL w] := rfl
@[simp] theorem decoded_e (w : BitVec 4) : decoded (.e w) = [decodeE w] := rfl

/-- In a reset cycle RESET alone is selected. -/
theorem selected_of_rst {b : Block} {p : PortIn} (h : p.rst = true) : selected b p = [.reset] := by
  simp [selected, decode, decodeR, h]

/-- In any other cycle each side selects one operation, and the LUT is looked up while a unit is held. -/
theorem selected_of_not_rst {b : Block} {p : PortIn} (h : p.rst = false) :
    selected b p = [decodeC (formC p)] ++ (if b.held then [decodeL (formL b)] else [])
      ++ [decodeE (formE b p), decodeU (formU b p)] := by
  cases hb : b.held <;> simp [selected, decode, decodeR, h, sideSelectors, hb]

/-! ### Operations one after another -/

@[simp] theorem runOps_nil (s : State) : runOps [] s = .next s := rfl

/-- An operation that answers a next state hands that state to the rest. -/
theorem runOps_cons {i : Instr} {is : List Instr} {s t : State} (h : exec i s = .next t) :
    runOps (i :: is) s = runOps is t := by simp [runOps, h]

end Sys2Proof.Machine
end

