-- ==== Sys2Proof/Laws/Exec.lean ====
section
/-! SUPPORT. What the operation of each side does in a cycle, one lemma a side, and the state a whole cycle
ends in. -/

namespace Sys2Proof.Machine

/-- The block after the configuration operation of a cycle. -/
def configured (b : Block) (p : PortIn) : Block :=
  if p.cfgWe = false then b
  else if p.cfgAddr = 0#3 then b.writeCtrl p.cfgWdata
  else if p.cfgAddr = 1#3 then b.writeRate p.cfgWdata
  else if p.cfgAddr = 2#3 then b.writePeriod p.cfgWdata
  else b

/-- An address above 5 is 6 or 7 by its last bit. -/
theorem unmapped_addr (w : BitVec 36) (h0 : w.extractLsb' 32 3 ≠ 0#3) (h1 : w.extractLsb' 32 3 ≠ 1#3)
    (h2 : w.extractLsb' 32 3 ≠ 2#3) (h3 : w.extractLsb' 32 3 ≠ 3#3) (h4 : w.extractLsb' 32 3 ≠ 4#3)
    (h5 : w.extractLsb' 32 3 ≠ 5#3) : 0b11#2 ++ w.extractLsb' 32 1 = w.extractLsb' 32 3 := by
  have e : w.extractLsb' 32 1 = (w.extractLsb' 32 3).extractLsb' 0 1 := by
    ext i hi
    simp only [BitVec.getElem_extractLsb', BitVec.getLsbD_extractLsb']
    simp; omega
  rw [e]
  clear e
  generalize w.extractLsb' 32 3 = a at *
  obtain ⟨⟨n, hn⟩⟩ := a
  interval_cases n
  · exact absurd rfl h0
  · exact absurd rfl h1
  · exact absurd rfl h2
  · exact absurd rfl h3
  · exact absurd rfl h4
  · exact absurd rfl h5
  · change 3#2 ++ BitVec.extractLsb' 0 1 6#3 = 6#3
    decide
  · change 3#2 ++ BitVec.extractLsb' 0 1 7#3 = 7#3
    decide

/-- The configuration operation of a cycle: `cfg_rdata` shows the state before the edge, and the register
written, if any, changes. -/
theorem exec_config (s : State) (p : PortIn) :
    exec (decodeC (formC p)) s = .next ((s.driveRead p.cfgAddr).setBlock (configured s.block p)) := by
  have ha := formC_addr p
  unfold decodeC configured
  simp only [formC_we, formC_wdata, ha]
  split
  · rfl
  split
  · next h => simp [exec, execCfgWrCtrl, h]
  split
  · next h => simp [exec, execCfgWrRate, h]
  split
  · next h => simp [exec, execCfgWrPeriod, h]
  split
  · next h => simp only [exec, execCfgWrSpsLo, h]; rfl
  split
  · next h => simp only [exec, execCfgWrSpsHi, h]; rfl
  split
  · next h => simp only [exec, execCfgWrStatus, h]; rfl
  · next h0 h1 h2 h3 h4 h5 =>
    have := unmapped_addr (formC p) (ha ▸ h0) (ha ▸ h1) (ha ▸ h2) (ha ▸ h3) (ha ▸ h4) (ha ▸ h5)
    simp only [exec, execCfgWrUnmapped, this, ha]; rfl

/-- The LUT lookup of a cycle drives the pair of the symbol looked up. -/
theorem exec_lookup (s : State) (b : Block) : exec (decodeL (formL b)) s = .next (s.drivePair (lut b.sym)) := by
  unfold decodeL
  rw [formL_sym]
  cases b.sym <;> rfl

/-- The output operation of a cycle, chosen by the block `b` before the edge and run on `s`. -/
theorem exec_output (s : State) (b : Block) (p : PortIn) :
    exec (decodeE (formE b p)) s = .next
      (if b.held = false then s.driveOut false silentPair
        else if p.outReady = false then s.driveOut true (lut s.block.sym)
        else s.emit.setBlock
          (if b.slast = false then s.block.nextSample
            else if b.ulast = false then s.block.nextSymbol
            else s.block.release)) := by
  unfold decodeE
  simp only [formE_held, formE_ready, formE_slast, formE_ulast]
  cases b.held <;> cases p.outReady <;> cases b.slast <;> cases b.ulast <;> rfl

/-- What the hold write of a unit accepted in MODE `m` leaves. -/
def holdUnit (m : Mode) (d : Byte) (b : Block) : Block :=
  match m with
  | .binary => b.hold d 7#3
  | .text => if d = Config.charOne then b.hold 1#8 0#3 else if d = Config.charZero then b.hold 0#8 0#3 else b

/-- The input operation of a cycle, chosen by the block `b` before the edge and run on `s`. -/
theorem exec_input (s : State) (b : Block) (p : PortIn) :
    exec (decodeU (formU b p)) s = .next
      (if (p.inValid && inReady b p) = false then s
        else (s.accept b.mode p.inData).setBlock (holdUnit b.mode p.inData s.block)) := by
  unfold decodeU holdUnit
  simp only [formU_fire, formU_mode, formU_data]
  split
  · rfl
  · cases b.mode
    · rfl
    · by_cases h1 : p.inData = Config.charOne
      · simp only [h1, Mode.bit]; rfl
      by_cases h0 : p.inData = Config.charZero
      · simp only [h0, Mode.bit]; rfl
      simp only [h1, h0, Mode.bit]; rfl

/-- A reset cycle. -/
theorem step_of_rst {s : State} (h : s.present.rst = true) :
    step s = .next (s.latch.setBlock Block.reset) := by
  simp [step, cycle, selected_of_rst h, runOps, exec, execReset]

/-- While a unit is held, a configuration write touches EN alone. -/
theorem configured_of_held {b : Block} (p : PortIn) (h : b.held = true) :
    ∃ e, configured b p = { b with en := e } := by
  have hl : b.locked = true := by simp [Block.locked, h]
  unfold configured
  split
  · exact ⟨b.en, rfl⟩
  split
  · exact ⟨ctrlEn p.cfgWdata, by simp [Block.writeCtrl, hl]⟩
  · exact ⟨b.en, by simp [Block.writeRate_of_locked, Block.writePeriod_of_locked, hl]⟩

/-- A configuration write leaves the datapath alone. -/
theorem configured_datapath (b : Block) (p : PortIn) : b.SameDatapath (configured b p) := by
  unfold configured Block.writeRate Block.writePeriod Block.writeCtrl
  repeat' split
  all_goals exact ⟨rfl, rfl, rfl, rfl, rfl⟩

/-- In a cycle the configuration read drives what the ports already show. -/
theorem driveRead_latch (s : State) : s.latch.driveRead s.present.cfgAddr = s.latch := rfl

/-- A cycle without reset that holds no unit before the edge: the configuration side, and the input side
where a unit transfers. -/
theorem step_of_idle {s : State} (h : s.present.rst = false) (hh : s.block.held = false) :
    step s = .next
      (if s.inFires = false then s.latch.setBlock (configured s.block s.present)
        else (s.latch.setBlock (configured s.block s.present)).accept s.block.mode s.present.inData
          |>.setBlock (holdUnit s.block.mode s.present.inData (configured s.block s.present))) := by
  have hpins : portOut s.block s.present
      = { portOut s.block s.present with outValid := false, out := silentPair } := by
    simp [portOut, outValid, hh]
  have hdrive : (s.latch.setBlock (configured s.block s.present)).driveOut false silentPair
      = s.latch.setBlock (configured s.block s.present) := by
    simp only [State.driveOut, State.setBlock, State.latch]
    rw [← hpins]
  simp only [step, cycle, selected_of_not_rst h, hh, List.append_nil, List.cons_append, List.nil_append,
    Bool.false_eq_true, if_false]
  rw [runOps_cons (exec_config _ _), driveRead_latch, State.latch_block,
    runOps_cons (exec_output _ _ _), if_pos hh, hdrive, runOps_cons (exec_input _ _ _)]
  rfl

/-- A cycle without reset that holds a unit before the edge: the configuration side, and the output side. -/
theorem step_of_held {s : State} (h : s.present.rst = false) (hh : s.block.held = true) :
    step s = .next
      (if s.present.outReady = false then s.latch.setBlock (configured s.block s.present)
        else { s.latch with
          block :=
            if s.block.slast = false then (configured s.block s.present).nextSample
            else if s.block.ulast = false then (configured s.block s.present).nextSymbol
            else (configured s.block s.present).release
          taken := s.taken ++ [lut s.block.sym] }) := by
  have hsym : (configured s.block s.present).sym = s.block.sym := by
    have hd := configured_datapath s.block s.present
    simp [Block.sym, hd.unit, hd.bidx]
  have hpins : portOut s.block s.present
      = { portOut s.block s.present with outValid := true, out := lut s.block.sym } := by
    simp [portOut, outValid, hh, h]
  have hfire : (s.present.inValid && inReady s.block s.present) = false := by simp [inReady, hh]
  have hmap : (s.latch.setBlock (configured s.block s.present)).drivePair (lut s.block.sym)
      = s.latch.setBlock (configured s.block s.present) := by
    simp only [State.drivePair, State.setBlock, State.latch]
    congr 1
    rw [hpins]
  have hdrive : (s.latch.setBlock (configured s.block s.present)).driveOut true (lut s.block.sym)
      = s.latch.setBlock (configured s.block s.present) := by
    simp only [State.driveOut, State.setBlock, State.latch]
    rw [← hpins]
  simp only [step, cycle, selected_of_not_rst h, hh, if_true, List.cons_append, List.nil_append]
  rw [runOps_cons (exec_config _ _), driveRead_latch, State.latch_block,
    runOps_cons (exec_lookup _ _), hmap, runOps_cons (exec_output _ _ _), if_neg (by simp [hh]),
    runOps_cons (exec_input _ _ _), if_pos hfire, runOps_nil]
  simp only [State.setBlock_block, hsym, State.emit, hdrive]
  rfl

end Sys2Proof.Machine
end

