-- ==== Sys2Proof/Laws/PerInstr.lean ====
section
/-! SUPPORT. Per operation: the word the encoder writes is one its own row of the operation map selects
(30_encoding.md R82). -/

namespace Sys2Proof.Laws

/-- The encoded word of a well-formed operation matches the operation's row. -/
def RowMatches.Statement (i : Instr) : Prop := i.wellFormed = true → i.row.selects (encode i) = true

/-- Masking the selector bits of a format C word. -/
theorem and_selector (hi m : BitVec 4) (lo : Word) :
    (hi ++ lo : BitVec 36).toNat &&& (m ++ 0#32 : BitVec 36).toNat = (hi &&& m).toNat <<< 32 := by
  rw [← BitVec.toNat_and]
  have h : (hi ++ lo : BitVec 36) &&& (m ++ 0#32 : BitVec 36) = ((hi &&& m) ++ (lo &&& 0#32) : BitVec 36) :=
    BitVec.and_append.symm ▸ rfl
  rw [h, BitVec.and_zero, BitVec.toNat_append]
  simp

/-- A format C word whose four selector bits agree with a row's pattern is selected by that row. -/
theorem selects_c {row : Row} {hi m : BitVec 4} {lo : Word} (hf : row.format = .c)
    (hm : row.mask = (m ++ 0#32 : BitVec 36).toNat) (hp : row.pat = (hi &&& m).toNat <<< 32)
    (hx : row.exclude = []) : row.selects (.c (hi ++ lo)) = true := by
  have h := and_selector hi m lo
  simp only [Row.selects, Selector.format, Selector.toNat, hf, hm, hp, hx, h]
  simp

/-- Masking the FIRE and MODE bits of a format U word. -/
theorem and_fireMode (hi : BitVec 2) (d : Byte) :
    (hi ++ d : BitVec 10).toNat &&& (0b11#2 ++ 0#8 : BitVec 10).toNat = hi.toNat <<< 8 := by
  rw [← BitVec.toNat_and]
  have h : (hi ++ d : BitVec 10) &&& (0b11#2 ++ 0#8 : BitVec 10) = ((hi &&& 0b11#2) ++ (d &&& 0#8) : BitVec 10) :=
    BitVec.and_append.symm ▸ rfl
  have h3 : hi &&& 0b11#2 = hi := BitVec.and_allOnes
  rw [h, h3, BitVec.and_zero, BitVec.toNat_append]
  simp

theorem RowMatches.cfgRd (addr : CfgAddr) : RowMatches.Statement (.cfgRd addr) := by
  intro _
  have ha : (0#1 ++ addr : BitVec 4) &&& 0b1000#4 = 0#4 := by
    ext i hi
    have : i = 0 ∨ i = 1 ∨ i = 2 ∨ i = 3 := by omega
    rw [BitVec.getElem_and, BitVec.getElem_append]
    rcases this with rfl | rfl | rfl | rfl <;> simp
  exact selects_c (hi := 0#1 ++ addr) (m := 0b1000#4) rfl rfl (by rw [ha]; rfl) rfl

theorem RowMatches.cfgWrCtrl (wdata : Word) : RowMatches.Statement (.cfgWrCtrl wdata) := fun _ =>
  selects_c (hi := 0b1000#4) (m := 0b1111#4) rfl rfl rfl rfl

theorem RowMatches.cfgWrRate (wdata : Word) : RowMatches.Statement (.cfgWrRate wdata) := fun _ =>
  selects_c (hi := 0b1001#4) (m := 0b1111#4) rfl rfl rfl rfl

theorem RowMatches.cfgWrPeriod (wdata : Word) : RowMatches.Statement (.cfgWrPeriod wdata) := fun _ =>
  selects_c (hi := 0b1010#4) (m := 0b1111#4) rfl rfl rfl rfl

theorem RowMatches.cfgWrSpsLo (wdata : Word) : RowMatches.Statement (.cfgWrSpsLo wdata) := fun _ =>
  selects_c (hi := 0b1011#4) (m := 0b1111#4) rfl rfl rfl rfl

theorem RowMatches.cfgWrSpsHi (wdata : Word) : RowMatches.Statement (.cfgWrSpsHi wdata) := fun _ =>
  selects_c (hi := 0b1100#4) (m := 0b1111#4) rfl rfl rfl rfl

theorem RowMatches.cfgWrStatus (wdata : Word) : RowMatches.Statement (.cfgWrStatus wdata) := fun _ =>
  selects_c (hi := 0b1101#4) (m := 0b1111#4) rfl rfl rfl rfl

theorem RowMatches.cfgWrUnmapped (lsb : BitVec 1) (wdata : Word) :
    RowMatches.Statement (.cfgWrUnmapped lsb wdata) := by
  intro _
  have ha : (0b111#3 ++ lsb : BitVec 4) &&& 0b1110#4 = 0b1110#4 := by
    ext i hi
    have : i = 0 ∨ i = 1 ∨ i = 2 ∨ i = 3 := by omega
    rw [BitVec.getElem_and, BitVec.getElem_append]
    rcases this with rfl | rfl | rfl | rfl <;> simp
  exact selects_c (hi := 0b111#3 ++ lsb) (m := 0b1110#4) rfl rfl (by rw [ha]; rfl) rfl

theorem RowMatches.inNone : RowMatches.Statement .inNone := fun _ => by decide

theorem RowMatches.unitBin (data : Byte) : RowMatches.Statement (.unitBin data) := by
  intro _
  have h : (0b10#2 ++ data : BitVec 10).toNat &&& 0x300 = 0x200 := and_fireMode 0b10#2 data
  simp [Row.selects, Instr.row, encode, Selector.format, Selector.toNat, -BitVec.toNat_append, h]

theorem RowMatches.unitTxtOne : RowMatches.Statement .unitTxtOne := fun _ => by decide

theorem RowMatches.unitTxtZero : RowMatches.Statement .unitTxtZero := fun _ => by decide

theorem RowMatches.unitTxtSkip (data : Byte) : RowMatches.Statement (.unitTxtSkip data) := by
  intro hw
  have h : (0b11#2 ++ data : BitVec 10).toNat &&& 0x300 = 0x300 := and_fireMode 0b11#2 data
  have hn : (0b11#2 ++ data : BitVec 10).toNat = 0x300 + data.toNat := by
    rw [BitVec.toNat_append, ← Nat.shiftLeft_add_eq_or_of_lt data.isLt]; rfl
  simp only [Instr.wellFormed, Bool.and_eq_true, bne_iff_ne, ne_eq, BitVec.toNat_eq] at hw
  have h1 : Config.charOne.toNat = 0x31 := rfl
  have h0 : Config.charZero.toNat = 0x30 := rfl
  rw [h1, h0] at hw
  rw [hn] at h
  simp only [Row.selects, Instr.row, encode, Selector.format, Selector.toNat, hn, h]
  simp
  omega

theorem RowMatches.mapOne : RowMatches.Statement .mapOne := fun _ => by decide

theorem RowMatches.mapZero : RowMatches.Statement .mapZero := fun _ => by decide

theorem RowMatches.outIdle : RowMatches.Statement .outIdle := fun _ => by decide

theorem RowMatches.outStall : RowMatches.Statement .outStall := fun _ => by decide

theorem RowMatches.emitRepeat : RowMatches.Statement .emitRepeat := fun _ => by decide

theorem RowMatches.emitSymbolEnd : RowMatches.Statement .emitSymbolEnd := fun _ => by decide

theorem RowMatches.emitUnitEnd : RowMatches.Statement .emitUnitEnd := fun _ => by decide

theorem RowMatches.reset : RowMatches.Statement .reset := fun _ => by decide

end Sys2Proof.Laws
end

