-- ==== Sys2Proof/Tests/Slice0.lean ====
section
/-! SUPPORT. Tests with results taken from spec/ (95_test_vectors.md and the rules' examples), the words of
the encodings written out, the WellFormed smoke test, and a witness for every statement with hypotheses. -/

namespace Sys2Proof.Tests

open Sys2Proof.Machine

/-! ### Helpers -/

/-- The state an operation leaves, the given one where it stops. -/
def after (i : Instr) (s : State) : State :=
  match exec i s with
  | .next t => t
  | .fault _ => s
  | .refused _ => s

/-- The state a cycle leaves, the given one where it stops. -/
def afterStep (s : State) : State :=
  match step s with
  | .next t => t
  | .fault _ => s
  | .refused _ => s

/-- A fresh machine over a block, with a script and a sink level. -/
def machine (b : Block) (ls : List Line) (sinkOn : Bool) : State :=
  { State.fresh b with script := ls, sinkOn := sinkOn }

/-- An enabled block of a MODE with SPS = 2 (RATE = 1,000,000, PERIOD = 2, V1.2), no unit held. -/
def ready (m : Mode) : Block := { Block.reset with en := true, mode := m, rate := 1000000#32, period := 2#32 }

/-- A block at SPS = 2 holding a unit at a given place. -/
def holding (en : Bool) (u : Byte) (last bidx : SymIdx) (cnt : Sps) : Block :=
  { ready .binary with en := en, held := true, unit := u, lastidx := last, bidx := bidx, cnt := cnt }

/-- A reset block with SPS = 0, enabled. -/
def silent (m : Mode) : Block := { ready m with rate := 0#32 }

/-! ### Well-formedness and decoding -/

theorem test_skip_of_one_is_ill_formed : (Instr.unitTxtSkip 0x31#8).wellFormed = false := by decide
theorem test_skip_of_zero_is_ill_formed : (Instr.unitTxtSkip 0x30#8).wellFormed = false := by decide
theorem test_skip_of_x_is_well_formed : (Instr.unitTxtSkip 0x78#8).wellFormed = true := by decide

/-! Words from 95_test_vectors.md sections 2.2 and 2.3 and the patterns of R82, bit by bit. -/

theorem test_decode_cfgRd : decodeC 0b010100000000000000000000000000000000#36 = .cfgRd 5#3 := by decide
theorem test_decode_cfgWrCtrl : decodeC 0b100000000000000000000000000000000011#36 = .cfgWrCtrl 3#32 := by decide
theorem test_decode_cfgWrRate : decodeC 0x9001E8480#36 = .cfgWrRate 2000000#32 := by decide
theorem test_decode_cfgWrPeriod : decodeC 0xA00000005#36 = .cfgWrPeriod 5#32 := by decide
theorem test_decode_cfgWrSpsLo : decodeC 0xB00000005#36 = .cfgWrSpsLo 5#32 := by decide
theorem test_decode_cfgWrSpsHi : decodeC 0xCFFFFFFFF#36 = .cfgWrSpsHi 0xFFFFFFFF#32 := by decide
theorem test_decode_cfgWrStatus : decodeC 0xD00000007#36 = .cfgWrStatus 7#32 := by decide
theorem test_decode_cfgWrA6 : decodeC 0xE00001234#36 = .cfgWrUnmapped 0#1 0x1234#32 := by decide
theorem test_decode_cfgWrA7 : decodeC 0xFFFFFFFFF#36 = .cfgWrUnmapped 1#1 0xFFFFFFFF#32 := by decide
theorem test_decode_inNone : decodeU 0b0100110001#10 = .inNone := by decide
theorem test_decode_unitBin : decodeU 0b1000110001#10 = .unitBin 0x31#8 := by decide
theorem test_decode_unitTxtOne : decodeU 0b1100110001#10 = .unitTxtOne := by decide
theorem test_decode_unitTxtZero : decodeU 0b1100110000#10 = .unitTxtZero := by decide
theorem test_decode_unitTxtSkip : decodeU 0b1100101111#10 = .unitTxtSkip 0x2F#8 := by decide
theorem test_decode_mapOne : decodeL 1#1 = .mapOne := by decide
theorem test_decode_mapZero : decodeL 0#1 = .mapZero := by decide
theorem test_decode_outIdle : decodeE 0b0111#4 = .outIdle := by decide
theorem test_decode_outStall : decodeE 0b1010#4 = .outStall := by decide
theorem test_decode_emitRepeat : decodeE 0b1101#4 = .emitRepeat := by decide
theorem test_decode_emitSymbolEnd : decodeE 0b1110#4 = .emitSymbolEnd := by decide
theorem test_decode_emitUnitEnd : decodeE 0b1111#4 = .emitUnitEnd := by decide
theorem test_decode_reset : decode (.r 1#1) = .ok .reset := rfl
theorem test_decode_no_reset : decode (.r 0#1) = .error .selectsNothing := rfl
theorem test_bytes_short : decodeBytes .c [0#8, 0#8] = .error .truncated := rfl
theorem test_bytes_high_bit : decodeBytes .u [0#8, 0x04#8] = .error .bitsAboveFormat := rfl
theorem test_table_word : decodeTableWord 40 0x9001E8480 = some (.cfgWrRate 2000000#32) := by decide

/-! ### SPS (95_test_vectors.md section 2.1) -/

theorem test_sps_floor : { Block.reset with rate := 44100#32, period := 1000#32 }.sps = 44#45 := by decide
theorem test_sps_max :
    { Block.reset with rate := 0xFFFFFFFF#32, period := 0xFFFFFFFF#32 }.sps = 18446744065119#45 := by decide

/-! ### Configuration operations (section 2.2, by row) -/

theorem test_C2 : (after (.cfgRd 1#3) .reset).pins.cfgRdata = 0x00989680#32 := by decide
theorem test_C4 : (after (.cfgRd 3#3) .reset).pins.cfgRdata = 0x000004F6#32 := by decide
theorem test_C11 : cfgView 0#3 (after (.cfgWrCtrl 0xFFFFFFFF#32) .reset).block = 3#32 := by decide
theorem test_C12 : cfgView 0#3 (after (.cfgWrCtrl 0#32) (machine (ready .text) [] false)).block = 2#32 := by
  decide
theorem test_C16 : cfgView 3#3 (after (.cfgWrRate 2000000#32) .reset).block = 254#32 := by decide
theorem test_C18 :
    (after (.cfgWrRate 3000000#32) (machine (holding false 1#8 7#3 0#3 0#45) [] false)).block.rate = 1000000#32 := by
  decide
theorem test_C20 : cfgView 3#3 (after (.cfgWrPeriod 1#32) .reset).block = 10#32 := by decide
theorem test_C21 : (after (.cfgWrPeriod 5#32) (machine (ready .binary) [] false)).block.period = 2#32 := by decide
theorem test_C23 : cfgView 3#3 (after (.cfgWrSpsLo 5#32) .reset).block = 0x000004F6#32 := by decide
theorem test_C24 : cfgView 4#3 (after (.cfgWrSpsHi 0xFFFFFFFF#32) .reset).block = 0#32 := by decide
theorem test_C25 :
    cfgView 5#3 (after (.cfgWrStatus 7#32) (machine (holding true 1#8 7#3 0#3 0#45) [] false)).block = 3#32 := by
  decide
theorem test_C26 : (after (.cfgWrUnmapped 0#1 0x1234#32) .reset).pins.cfgRdata = 0#32 := by decide

/-! ### Input operations (section 2.3) -/

theorem test_unitBin_A5 :
    let b := (after (.unitBin 0xA5#8) (machine (ready .binary) [] false)).block
    b.held = true ∧ b.unit = 0xA5#8 ∧ b.lastidx = 7#3 := by decide
theorem test_U4 : (after (.unitBin 0xFF#8) (machine (silent .binary) [] false)).block.held = false := by decide
theorem test_unitTxtOne :
    let b := (after .unitTxtOne (machine (ready .text) [] false)).block
    b.held = true ∧ b.unit = 0x01#8 ∧ b.lastidx = 0#3 := by decide
theorem test_U5 : (after .unitTxtOne (machine (silent .text) [] false)).block.held = false := by decide
theorem test_unitTxtZero :
    let b := (after .unitTxtZero (machine (ready .text) [] false)).block
    b.held = true ∧ b.unit = 0x00#8 ∧ b.lastidx = 0#3 := by decide
theorem test_unitTxtSkip : (after (.unitTxtSkip 0x78#8) (machine (ready .text) [] false)).block = ready .text := by
  decide

/-! ### I/Q mapping (section 2.4) -/

theorem test_mapOne : (after .mapOne .reset).pins.out.data = 0x007F#16 := by decide
theorem test_mapZero : (after .mapZero .reset).pins.out.data = 0x0000#16 := by decide
theorem test_bytes_i_first : (lut true).bytes = [0x7F#8, 0x00#8] := by decide

/-! ### Output operations (section 2.5) -/

theorem test_T5_stall :
    (afterStep (machine (holding true 0xFF#8 7#3 3#3 1#45) [] false)).block = holding true 0xFF#8 7#3 3#3 1#45 := by
  decide
theorem test_T5_symbol_end :
    (afterStep (machine (holding true 0xFF#8 7#3 3#3 1#45) [] true)).block = holding true 0xFF#8 7#3 4#3 0#45 := by
  decide
theorem test_T3_repeat : (after .emitRepeat (machine (holding true 1#8 7#3 0#3 0#45) [] true)).block.cnt = 1#45 := by
  decide
theorem test_T3_pair :
    (after .emitSymbolEnd (machine (holding true 1#8 7#3 0#3 1#45) [] true)).taken = [⟨0x7F#8, 0#8⟩] := by decide
theorem test_unit_end :
    (after .emitUnitEnd (machine (holding true 0#8 0#3 0#3 1#45) [] true)).block = ready .binary := by decide
theorem test_unit_end_pair :
    (after .emitUnitEnd (machine (holding true 0#8 0#3 0#3 1#45) [] true)).taken = [⟨0#8, 0#8⟩] := by decide

/-! ### The stream function (section 1 V1.2, section 2.6) -/

theorem test_V1_2 :
    byteStream (streamOut [⟨.text, 2#45, 0x31#8⟩, ⟨.text, 2#45, 0x30#8⟩, ⟨.text, 2#45, 0x31#8⟩])
      = [0x7F#8, 0#8, 0x7F#8, 0#8, 0#8, 0#8, 0#8, 0#8, 0x7F#8, 0#8, 0x7F#8, 0#8] := by decide

/-! ### Cycles (sections 2.2 and 2.7) -/

/-- C29: a unit offered in the cycle of the write that sets EN does not transfer. -/
theorem test_C29 :
    (afterStep (machine Block.reset [.cycle ⟨false, true, 0#3, 1#32, true, 0x01#8, false⟩] false)).accepted = [] := by
  decide

/-- H2: no transfer in a reset cycle; the unit is abandoned. -/
theorem test_H2 :
    let t := afterStep (machine (holding true 1#8 7#3 0#3 0#45) [.reset] true)
    t.taken = [] ∧ t.block = Block.reset ∧ t.pins.outValid = false := by decide

/-- H3: a write in the cycle of a reset is void. -/
theorem test_H3 :
    (afterStep (machine Block.reset [.cycle ⟨true, true, 1#3, 5#32, false, 0#8, false⟩] false)).block.rate
      = 10000000#32 := by decide

/-- H8: STATUS read in the cycle of EMIT_UNIT_END shows BUSY = 1. -/
theorem test_H8 :
    (afterStep (machine (holding true 1#8 0#3 0#3 1#45) [.rd 5#3] true)).reads = [3#32] := by decide

/-- The host's parse of `-p` (R214): malformed is 0, a value in range is itself. -/
theorem test_host_period : hostPeriod none = 0#32 ∧ hostPeriod (some 127) = 127#32 := by decide

/-- 60_exceptions.md R181: with nothing offered an enabled block idles on. -/
theorem test_idle_goes_on : (afterStep (machine (ready .binary) [] false)).block = ready .binary := by decide

/-- 60_exceptions.md R181: a repeating source offers its first unit again when its pass is over. -/
theorem test_source_starts_over :
    ((machine (ready .binary) [] true).repeatInput [0xA5#8]).present.inData = 0xA5#8
    ∧ (afterStep ((machine (ready .binary) [.unit 1#8] true).repeatInput [0xA5#8])).present.inData = 0xA5#8 := by
  decide

/-! ### Placing a table word: the next cycle runs it -/

theorem test_placed_rate : ((afterStep (State.reset.withFetchWord 40 0x900000007)).block.rate) = 7#32 := by decide
theorem test_placed_unit : ((afterStep (State.reset.withFetchWord 16 0x2A5)).block.unit) = 0xA5#8 := by decide
theorem test_placed_repeat : ((afterStep (State.reset.withFetchWord 8 0xC)).block.cnt) = 1#45 := by decide

/-! ### Witnesses: states that meet the hypotheses of the statements

Named after the statement whose hypotheses they meet. -/

/-- A cycle port vector: no reset, the sink's level, no write, a unit offered or not. -/
def ports (offer : Bool) (d : Byte) (sink : Bool) : PortIn := ⟨false, false, 5#3, 0#32, offer, d, sink⟩

/-- A cycle that writes a register. -/
def writing (a : CfgAddr) (v : Word) : PortIn := ⟨false, true, a, v, false, 0#8, false⟩

theorem holding_inv : (holding true 1#8 7#3 0#3 0#45).Inv :=
  ⟨(by intro h; cases h), fun _ => ⟨by decide, by decide, by decide⟩,
    fun _ => .inr rfl, by intro _ h; cases h⟩

/-- Every step statement's `step s = .next t`: reset, idle and held cycles answer one. -/
theorem wit_reset_cycle : (machine Block.reset [.reset] false).present.rst = true
    ∧ ∃ t, step (machine Block.reset [.reset] false) = .next t := ⟨rfl, _, step_of_rst rfl⟩
theorem wit_idle_cycle : (machine (ready .binary) [] false).present.rst = false
    ∧ ∃ t, step (machine (ready .binary) [] false) = .next t := ⟨rfl, _, step_of_idle rfl rfl⟩
theorem wit_held_cycle : (machine (holding true 1#8 7#3 0#3 0#45) [] true).present.rst = false
    ∧ ∃ t, step (machine (holding true 1#8 7#3 0#3 0#45) [] true) = .next t := ⟨rfl, _, step_of_held rfl rfl⟩

theorem wit_ResetCyclesFromAnyState :
    (machine Block.powerOn [.reset, .reset, .rd 0#3] false).script = List.replicate (1 + 1) .reset ++ [.rd 0#3] := rfl
theorem wit_CfgWrWhileUnlocked : State.reset.block.en = false ∧ State.reset.block.held = false := by decide
theorem wit_ConfigurationOperations : ∃ t, exec (decodeC 0x900000007#36) .reset = .next t := ⟨_, rfl⟩

/-- Two cycles over one block, differing in the configuration ports alone, and two differing in the stream
ports alone. -/
theorem wit_SidesDoNotInterfere :
    let s := machine (ready .binary) [.cycle (ports true 1#8 false)] false
    let s' := machine (ready .binary) [.cycle { ports true 1#8 false with cfgWe := true, cfgAddr := 0#3 }] false
    let s'' := machine (ready .binary) [.cycle (ports false 2#8 true)] false
    s.block = s'.block ∧ s.present.rst = false ∧ s'.present.rst = false
      ∧ s.present.inValid = s'.present.inValid ∧ s.present.inData = s'.present.inData
      ∧ s.present.outReady = s'.present.outReady
      ∧ s.block = s''.block ∧ s''.present.rst = false ∧ s.present.cfgWe = s''.present.cfgWe
      ∧ s.present.cfgAddr = s''.present.cfgAddr ∧ s.present.cfgWdata = s''.present.cfgWdata
      ∧ (∃ t, step s = .next t) ∧ (∃ t, step s' = .next t) ∧ ∃ t, step s'' = .next t :=
  ⟨rfl, rfl, rfl, rfl, rfl, rfl, rfl, rfl, rfl, rfl, rfl, ⟨_, step_of_idle rfl rfl⟩, ⟨_, step_of_idle rfl rfl⟩,
    ⟨_, step_of_idle rfl rfl⟩⟩

/-- AWrittenRegisterReadsBackFromTheNextCycle: its three addresses. -/
theorem wit_ReadBack (a : CfgAddr) (v : Word) :
    let s := machine Block.reset [.cycle (writing a v)] false
    s.present.rst = false ∧ s.present.cfgWe = true ∧ s.present.cfgAddr = a ∧ s.block.en = false
      ∧ s.block.held = false ∧ ∃ t, step s = .next t := ⟨rfl, rfl, rfl, rfl, rfl, _, step_of_idle rfl rfl⟩

theorem wit_SkippedBytes : (0x2F#8 : Byte) ≠ 0x31#8 ∧ (0x2F#8 : Byte) ≠ 0x30#8 := by decide
theorem wit_InputSide : (ports true 0x31#8 false).rst = false := rfl
theorem wit_NoTransfer : (ports false 1#8 false).inValid = false ∧ Block.reset.en = false
    ∧ (holding true 1#8 7#3 0#3 0#45).held = true := ⟨rfl, rfl, rfl⟩

/-- WritesOfReadOnlyAndUnmappedAddressesAreIgnored: the two operations that clear `held` do. -/
theorem wit_HeldIsCleared :
    let s := machine (holding true 1#8 7#3 7#3 1#45) [] true
    s.block.held = true ∧ exec .emitUnitEnd s = .next (after .emitUnitEnd s)
      ∧ (after .emitUnitEnd s).block.held = false ∧ (after .reset s).block.held = false := ⟨rfl, rfl, rfl, rfl⟩

/-- OutputSideDispatchesOnHeldReadyAndLast: a value with HELD = 0, and a cycle without reset. -/
theorem wit_OutputSide : (0b0111#4 : BitVec 4).getLsbD 3 = false
    ∧ (∃ t, exec (decodeE 0b0111#4) (machine Block.reset [] false) = .next t)
    ∧ (ports true 0x31#8 true).rst = false := ⟨rfl, ⟨_, rfl⟩, rfl⟩

/-- TheStreamFunctionConcatenates, BinarySymbolsAreTheBitsLeastSignificantFirst, DecodeOfEncodeIsTheOperation. -/
theorem wit_SmallHypotheses : 2 ≤ 3 ∧ 7 < 8 ∧ (Instr.unitTxtSkip 0xFF#8).wellFormed = true := by decide

/-- TheHeldUnitAgreesWithTheSymbolFunction: a unit with symbols, one without, and one at SPS 0. -/
theorem wit_HeldUnitAgrees :
    let s := machine (ready .text) [.unit 0x31#8] false
    let s' := machine (ready .text) [.unit 0x32#8] false
    let s'' := machine (silent .binary) [.unit 0x31#8] false
    s.inFires = true ∧ s.block.sps.toNat ≠ 0 ∧ syms s.block.mode s.present.inData ≠ []
      ∧ s'.inFires = true ∧ syms s'.block.mode s'.present.inData = []
      ∧ s''.inFires = true ∧ s''.block.sps.toNat = 0 := by decide

theorem wit_EveryTransferredPair :
    ∀ x ∈ (after .emitSymbolEnd (machine (holding true 1#8 7#3 0#3 1#45) [] true)).taken,
      x.q = 0#8 ∧ (x.i = 127#8 ∨ x.i = 0#8) := by decide

/-- NoCounterWrapsWhileAUnitIsHeld: a stall, a repeat and a symbol end. -/
theorem wit_NoCounterWraps :
    (holding true 1#8 7#3 0#3 0#45).Inv
    ∧ (afterStep (machine (holding true 1#8 7#3 0#3 0#45) [] false)).block.cnt = 0#45
    ∧ (afterStep (machine (holding true 1#8 7#3 0#3 0#45) [] true)).block.cnt = 1#45
    ∧ (afterStep (machine (holding true 1#8 7#3 6#3 1#45) [] true)).block.bidx = 7#3 :=
  ⟨holding_inv, by decide, by decide, by decide⟩

/-- SpsIsTheExactFlooredProduct: products below and at 1,000,000, and zero factors. -/
theorem wit_SpsCorners :
    (999999#32 : Word).toNat * (1#32 : Word).toNat < 1000000
    ∧ (1000000#32 : Word).toNat * (1#32 : Word).toNat = 1000000
    ∧ { Block.reset with rate := 0#32 }.rate = 0#32 := by decide

theorem reset_inv : Block.reset.Inv :=
  ⟨fun _ => ⟨rfl, rfl, rfl, rfl⟩, (by intro h; cases h), (by intro h; cases h), (by intro h; cases h)⟩
theorem ready_inv (m : Mode) : (ready m).Inv :=
  ⟨fun _ => ⟨rfl, rfl, rfl, rfl⟩, (by intro h; cases h), (by intro h; cases h), (by intro h; cases h)⟩
theorem silent_inv (m : Mode) : (silent m).Inv :=
  ⟨fun _ => ⟨rfl, rfl, rfl, rfl⟩, (by intro h; cases h), (by intro h; cases h), (by intro h; cases h)⟩

/-- StatusShowsOnlyTheReachableCombinations: its five values (section 2.2). -/
theorem wit_StatusValues :
    cfgView 5#3 (holding false 1#8 7#3 0#3 0#45) = 3#32 ∧ cfgView 5#3 (silent .binary) = 6#32
    ∧ cfgView 5#3 (ready .binary) = 2#32 ∧ cfgView 5#3 { silent .binary with en := false } = 4#32
    ∧ cfgView 5#3 Block.reset = 0#32 := by decide

theorem wit_AStepRunsTheDecodedOperations :
    let s := machine (holding true 1#8 7#3 0#3 0#45) [] true
    decode (.c (formC s.present)) = .ok (.cfgRd 5#3) ∧ decode (.l (formL s.block)) = .ok .mapOne
    ∧ decode (.e (formE s.block s.present)) = .ok .emitRepeat
    ∧ decode (.u (formU s.block s.present)) = .ok .inNone := ⟨rfl, rfl, rfl, rfl⟩

theorem wit_APlacedTableWord : decodeTableWord 8 0xC = some .emitRepeat := by decide

theorem wit_EveryStepKeepsTheInvariant :
    (machine (holding true 1#8 7#3 0#3 0#45) [.wr 1#3 5#32] true).block.Inv
    ∧ ∃ t, step (machine (holding true 1#8 7#3 0#3 0#45) [.wr 1#3 5#32] true) = .next t :=
  ⟨holding_inv, _, step_of_held rfl rfl⟩

theorem wit_LockedConfiguration :
    let s := machine (ready .binary) [.wr 1#3 5#32] false
    (s.block.en || s.block.held) = true ∧ s.present.rst = false ∧ ∃ t, step s = .next t :=
  ⟨rfl, rfl, _, step_of_idle rfl rfl⟩

/-- HeldChangesOnlyByAcceptUnitEndAndReset: `held` falls, and rises. -/
theorem wit_HeldChanges :
    (afterStep (machine (holding true 1#8 7#3 7#3 1#45) [] true)).block.held = false
    ∧ (afterStep (machine (ready .binary) [.unit 1#8] true)).block.held = true := by decide

/-- EveryStepWithoutResetKeepsConformance: a state in the middle of a unit. -/
theorem wit_Conformance :
    let s := { machine (holding true 1#8 7#3 0#3 1#45) [] true with
      accepted := [⟨.binary, 2#45, 1#8⟩], taken := [⟨127#8, 0#8⟩] }
    s.Conforms ∧ s.present.rst = false ∧ ∃ t, step s = .next t :=
  ⟨by unfold State.Conforms; decide, rfl, _, step_of_held rfl rfl⟩

theorem wit_Conformance_inv : (holding true 1#8 7#3 0#3 1#45).Inv :=
  ⟨(by intro h; cases h), fun _ => ⟨by decide, by decide, by decide⟩, fun _ => .inr rfl, by intro _ h; cases h⟩

/-- RATE = 1,000,000, PERIOD = 1, so SPS = 1, then `start TEXT` and the unit '1'. -/
def oneUnitLines : List Line := [.wr 1#3 1000000#32, .wr 2#3 1#32, .wr 0#3 3#32, .unit 0x31#8]

/-- TransferredPairsAreAPrefixOfTheStreamFunction, FinishedRunsWithTheSameUnitsTransferTheSamePairs: one unit
accepted and emitted, without a stall and with one, the second under an environment that never ends. -/
theorem wit_Runs :
    noReset oneUnitLines = true ∧ noReset (oneUnitLines ++ [.idle 1, .sink true]) = true
    ∧ noReset [.idle 1] = true ∧ noReset [] = true
    ∧ (∃ t, steps 5 { State.reset with script := oneUnitLines, again := [], sinkOn := true } = .next t
        ∧ t.accepted = [⟨.text, 1#45, 0x31#8⟩] ∧ t.block.held = false)
    ∧ (∃ t, steps 6 { State.reset with
          script := oneUnitLines ++ [.idle 1, .sink true], again := [.idle 1], sinkOn := false } = .next t
        ∧ t.accepted = [⟨.text, 1#45, 0x31#8⟩] ∧ t.block.held = false) :=
  ⟨rfl, rfl, rfl, rfl, ⟨_, rfl, by decide, by decide⟩, ⟨_, rfl, by decide, by decide⟩⟩

/-- ASinkThatIsNeverReadyStallsForEver: offers, a write, and the same over and over. -/
theorem wit_NeverReady :
    let s : State := { machine (holding true 1#8 7#3 0#3 0#45) [.cycle (ports true 2#8 false)] false with
      again := [.cycle (writing 0#3 0#32)] }
    s.block.held = true ∧ s.Drives (fun p => p.rst = false ∧ p.outReady = false) :=
  ⟨rfl, ⟨rfl, rfl⟩, [ports true 2#8 false], [writing 0#3 0#32], rfl, rfl, by decide⟩

/-- ASourceThatOffersNothingIdlesForEver. -/
theorem wit_NoOffer :
    let s : State := { machine (ready .text) [] true with again := [.cycle (ports false 0#8 true)] }
    s.block.en = true ∧ s.block.held = false
      ∧ s.Drives (fun p => p.rst = false ∧ p.cfgWe = false ∧ p.inValid = false) :=
  ⟨rfl, rfl, ⟨rfl, rfl, rfl⟩, [], [ports false 0#8 true], rfl, rfl, by decide⟩

/-- ARepeatingSourceGivesUnboundedOutput: a pass under way, and an input with a skipped byte and a symbol. -/
theorem wit_RepeatingSource :
    let s := (machine (ready .text) (bytesLines [0x30#8]) true).repeatInput [0x78#8, 0x31#8]
    s.block.Inv ∧ s.block.en = true ∧ s.block.sps ≠ 0#45 ∧ s.sinkOn = true ∧ s.script = bytesLines [0x30#8]
      ∧ s.again = bytesLines [0x78#8, 0x31#8] ∧ ∃ d ∈ [0x78#8, 0x31#8], syms s.block.mode d ≠ [] :=
  ⟨ready_inv .text, rfl, by decide, rfl, rfl, rfl, 0x31#8, by decide, by decide⟩

/-- AHeldUnitIsReleasedAfterExactlyItsPairs: a TEXT unit at SPS 2, one stall, two transfers. -/
theorem wit_AHeldUnitIsReleased :
    let b : Block := holding true 1#8 0#3 0#3 0#45
    let ps := [ports false 0#8 false, ports true 5#8 true]
    let s := machine b (ps.map Line.cycle ++ [.cycle (ports false 0#8 true)]) false
    s.block.Inv ∧ s.block.held = true ∧ s.block.bidx = 0#3 ∧ s.block.cnt = 0#45
      ∧ (∀ q ∈ ps, q.rst = false) ∧ (ports false 0#8 true).outReady = true
      ∧ readyCycles ps + 1 = (s.block.lastidx.toNat + 1) * s.block.sps.toNat :=
  ⟨⟨(by intro h; cases h), fun _ => ⟨by decide, by decide, by decide⟩, fun _ => .inl rfl, fun _ _ => .inr rfl⟩,
    rfl, rfl, rfl, by decide, rfl, by decide⟩

theorem wit_WhileSpsIsZero :
    (machine (silent .binary) [.unit 0xFF#8] true).block.Inv ∧ (silent .binary).sps = 0#45
    ∧ ∃ t, step (machine (silent .binary) [.unit 0xFF#8] true) = .next t :=
  ⟨silent_inv .binary, by decide, _, step_of_idle rfl rfl⟩

/-- AnOfferedPairIsStableUntilTaken: a stalled cycle, then a taken one. -/
theorem wit_StableOffer :
    let s := machine (holding true 1#8 7#3 0#3 0#45)
      [.cycle (ports false 0#8 false), .cycle (ports false 0#8 true)] false
    let t := afterStep s
    step s = .next t ∧ (∃ u, step t = .next u) ∧ t.pins.outValid = true ∧ s.present.outReady = false
      ∧ t.present.rst = false := ⟨rfl, ⟨_, rfl⟩, rfl, rfl, rfl⟩

theorem wit_ADisabledBlockDrains :
    let s := machine (holding false 1#8 7#3 0#3 0#45) [] true
    s.block.en = false ∧ s.present.rst = false ∧ s.block.held = true ∧ s.present.outReady = true
      ∧ ∃ t, step s = .next t := ⟨rfl, rfl, rfl, rfl, _, step_of_held rfl rfl⟩

theorem wit_OneCycleWithoutAnOffer :
    let s := machine (holding true 1#8 7#3 7#3 1#45) [] true
    s.present.rst = false ∧ decode (.e (formE s.block s.present)) = .ok .emitUnitEnd
      ∧ ∃ t, step s = .next t := ⟨rfl, rfl, _, step_of_held rfl rfl⟩

/-- StartLatencyIsOneCycleToAcceptAndOneToOffer: start, a unit, and the cycle after (H4). -/
theorem wit_StartLatency :
    let s := machine Block.reset [.wr 0#3 1#32, .unit 1#8, .idle 1] true
    let t := afterStep s
    let u := afterStep t
    s.block.held = false ∧ s.block.en = false ∧ s.present.rst = false ∧ s.present.cfgWe = true
      ∧ s.present.cfgAddr = 0#3 ∧ s.present.cfgWdata.getLsbD 0 = true ∧ step s = .next t
      ∧ t.present.rst = false ∧ t.present.inValid = true ∧ step t = .next u ∧ t.block.sps ≠ 0#45
      ∧ syms t.block.mode t.present.inData ≠ [] ∧ u.present.rst = false ∧ ∃ v, step u = .next v :=
  ⟨rfl, rfl, rfl, rfl, rfl, rfl, rfl, rfl, rfl, rfl, by decide, by decide, rfl, ⟨_, rfl⟩⟩

theorem wit_AnIdleBlock :
    let s := machine Block.reset [.unit 1#8] true
    s.block.en = false ∧ s.block.held = false ∧ s.present.rst = false ∧ s.present.cfgWe = false
      ∧ ∃ t, step s = .next t := ⟨rfl, rfl, rfl, rfl, _, step_of_idle rfl rfl⟩

theorem wit_TheReconfigurationSequence :
    let s := machine (ready .text) (reconfigureLines 5#32 6#32 .text .binary) false
    s.block.held = false ∧ s.script = reconfigureLines 5#32 6#32 .text .binary ++ [] := by decide

theorem wit_TheBootSequence :
    (machine Block.powerOn (bootLines 5#32 6#32 .text) false).script = bootLines 5#32 6#32 .text ++ [] := rfl

/-- WaitingLinesStayUntilTheirEvent: a unit that waits, one that transfers, and a wait on STATUS. -/
theorem wit_WaitingLines :
    (machine Block.reset [.unit 1#8] true).inFires = false
    ∧ (machine (ready .binary) [.unit 1#8] true).inFires = true
    ∧ (afterStep (machine (holding true 1#8 7#3 0#3 0#45) [.waitIdle] false)).script = [.waitIdle]
    ∧ (afterStep (machine (ready .binary) [.waitIdle] false)).script = [] := by decide

end Sys2Proof.Tests
end

/-! PROOFS. One closed form of a whole cycle: the block's joint commit `Block.next` and the two stream
records as functions of the handshakes. The sides' operations, run one after another, end in it. -/

namespace Sys2Proof.Machine

/-! ### The configuration side -/

/-- The configuration operation is the configuration part of the joint commit (R101 to R107). -/
theorem configured_eq_nextConfig (b : Block) (p : PortIn) : configured b p = b.nextConfig p := by
  unfold configured Block.nextConfig Block.writeCtrl Block.writeRate Block.writePeriod Block.locked ctrlEn
    ctrlMode
  cases hw : p.cfgWe
  · simp
  by_cases h0 : p.cfgAddr = 0#3
  · cases hl : b.en || b.held <;> simp [h0]
  by_cases h1 : p.cfgAddr = 1#3
  · cases hl : b.en || b.held <;> simp [h1]
  by_cases h2 : p.cfgAddr = 2#3
  · cases hl : b.en || b.held <;> simp [h2]
  simp [h0, h1, h2]

/-- While EN = 1 a configuration write leaves RATE and PERIOD, hence SPS, alone (R25). -/
theorem Block.nextConfig_sps_of_en {b : Block} (p : PortIn) (h : b.en = true) :
    (b.nextConfig p).sps = b.sps := by
  simp [Block.nextConfig, Block.sps, Block.spsNat, h]

/-! ### `Block.next`, one equation per kind of cycle -/

theorem Block.next_of_rst (b : Block) {p : PortIn} (h : p.rst = true) : b.next p = Block.reset := by
  simp [Block.next, h]

theorem Block.next_of_stall {b : Block} {p : PortIn} (h : p.rst = false) (hh : b.held = true)
    (hr : p.outReady = false) : b.next p = b.nextConfig p := by
  simp [Block.next, h, hh, hr]

/-- A cycle with an output transfer: the datapath write of the output operation, made on top of the
configuration write, reads nothing that write changes. -/
theorem Block.next_of_emit {b : Block} {p : PortIn} (h : p.rst = false) (hh : b.held = true)
    (hr : p.outReady = true) :
    b.next p =
      if b.slast = false then (b.nextConfig p).nextSample
      else if b.ulast = false then (b.nextConfig p).nextSymbol
      else (b.nextConfig p).release := by
  simp only [Block.next, Block.slast, Block.ulast, h, hh, hr, beq_eq_false_iff_ne]
  rfl

/-- No unit held and none transferring: only the configuration changes. -/
theorem Block.next_of_no_transfer {b : Block} {p : PortIn} (h : p.rst = false) (hh : b.held = false)
    (hf : (p.inValid && b.en) = false) : b.next p = b.nextConfig p := by
  simp [Block.next, h, hh, hf]

/-- A cycle with an input transfer: the hold write may be made on top of the configuration write, since the
lock keeps the SPS it reads. -/
theorem Block.next_of_accept {b : Block} {p : PortIn} (h : p.rst = false) (hh : b.held = false)
    (hv : p.inValid = true) (he : b.en = true) :
    b.next p = holdUnit b.mode p.inData (b.nextConfig p) := by
  have hsps := Block.nextConfig_sps_of_en p he
  by_cases hz : b.sps = 0#45
  · have hold_nothing (u : Byte) (l : SymIdx) : (b.nextConfig p).hold u l = b.nextConfig p :=
      Block.hold_of_sps_zero _ u l (hsps.trans hz)
    cases hm : b.mode <;> simp [Block.next, holdUnit, h, hh, hz, hold_nothing]
  · have hold_loads (u : Byte) (l : SymIdx) := Block.hold_of_sps_ne_zero (b.nextConfig p) u l (hsps ▸ hz)
    cases hm : b.mode <;>
      simp [Block.next, holdUnit, h, hh, hv, he, hz, hm, hold_loads, Config.charOne, Config.charZero]

/-! ### The handshakes -/

/-- In a reset cycle nothing transfers (R191). -/
theorem State.no_transfer_of_rst {s : State} (h : s.present.rst = true) :
    s.inFires = false ∧ s.outFires = false := by
  simp [State.inFires, State.outFires, inReady, outValid, h]

/-- While a unit is held no unit transfers in, and a pair transfers out exactly when the sink is ready. -/
theorem State.transfers_of_held {s : State} (h : s.present.rst = false) (hh : s.block.held = true) :
    s.inFires = false ∧ s.outFires = s.present.outReady := by
  simp [State.inFires, State.outFires, inReady, outValid, h, hh]

/-- While no unit is held no pair transfers out, and an offered unit transfers in exactly when EN = 1. -/
theorem State.transfers_of_idle {s : State} (h : s.present.rst = false) (hh : s.block.held = false) :
    s.inFires = (s.present.inValid && s.block.en) ∧ s.outFires = false := by
  simp [State.inFires, State.outFires, inReady, outValid, h, hh]

/-- `in_ready` needs no unit held and `out_valid` a unit held, so no cycle has both transfers (R172). -/
theorem State.not_inFires_and_outFires (s : State) : ¬ (s.inFires = true ∧ s.outFires = true) := by
  simp only [State.inFires, State.outFires, inReady, outValid]
  cases s.block.held <;> simp

/-! ### The whole cycle -/

/-- The units a cycle adds to the source's record (R157). -/
def State.acceptedNow (s : State) : List Accepted :=
  if s.inFires then [{ mode := s.block.mode, sps := s.block.sps, data := s.present.inData }] else []

/-- The pairs a cycle adds to the sink's record. -/
def State.takenNow (s : State) : List Pair := if s.outFires then [lut s.block.sym] else []

/-- The state after a cycle, every field a function of the state before the edge. -/
def State.next (s : State) : State :=
  { s.latch with
    block := s.block.next s.present
    accepted := s.accepted ++ s.acceptedNow
    taken := s.taken ++ s.takenNow }

section StateNext
variable (s : State)

@[simp] theorem State.next_block : s.next.block = s.block.next s.present := rfl
@[simp] theorem State.next_accepted : s.next.accepted = s.accepted ++ s.acceptedNow := rfl
@[simp] theorem State.next_taken : s.next.taken = s.taken ++ s.takenNow := rfl
@[simp] theorem State.next_pins : s.next.pins = portOut s.block s.present := rfl
@[simp] theorem State.next_script : s.next.script = scriptRest s.block s.pending := rfl
@[simp] theorem State.next_again : s.next.again = s.again := rfl
@[simp] theorem State.next_sinkOn : s.next.sinkOn = s.level := rfl
@[simp] theorem State.next_reads :
    s.next.reads = s.reads ++ scriptReads s.block s.present s.pending := rfl

end StateNext

/-- Without a transfer only the block differs from the latched state. -/
theorem State.next_of_no_transfer {s : State} (hi : s.inFires = false) (ho : s.outFires = false) :
    s.next = s.latch.setBlock (s.block.next s.present) := by
  simp [State.next, State.setBlock, State.latch, State.acceptedNow, State.takenNow, hi, ho]

/-- Every cycle ends in the closed form. -/
theorem step_eq_next (s : State) : step s = .next s.next := by
  cases h : s.present.rst
  case true =>
    obtain ⟨hi, ho⟩ := State.no_transfer_of_rst h
    rw [step_of_rst h, State.next_of_no_transfer hi ho, Block.next_of_rst _ h]
  cases hh : s.block.held
  case true =>
    obtain ⟨hi, ho⟩ := State.transfers_of_held h hh
    rw [step_of_held h hh, configured_eq_nextConfig]
    cases hr : s.present.outReady
    · rw [State.next_of_no_transfer hi (ho.trans hr), Block.next_of_stall h hh hr, if_pos rfl]
    · simp [State.next, State.latch, State.acceptedNow, State.takenNow, hi, ho, hr,
        Block.next_of_emit h hh hr]
  case false =>
    obtain ⟨hi, ho⟩ := State.transfers_of_idle h hh
    rw [step_of_idle h hh, configured_eq_nextConfig]
    cases hf : s.present.inValid && s.block.en
    · rw [if_pos (hi.trans hf), State.next_of_no_transfer (hi.trans hf) ho,
        Block.next_of_no_transfer h hh hf]
    · obtain ⟨hv, he⟩ := Bool.and_eq_true_iff.mp hf
      simp [State.next, State.latch, State.accept, State.setBlock, State.acceptedNow, State.takenNow,
        hi, ho, hv, he, Block.next_of_accept h hh hv he, Block.nextConfig_sps_of_en]

/-- The only state a step answers. -/
theorem eq_next_of_step {s t : State} (h : step s = .next t) : t = s.next := by
  rw [step_eq_next] at h
  exact (Host.Outcome.next.inj h).symm

/-! ### The statements -/

/-- Settles O32: the closed form's block is `Block.next`. -/
theorem aCycleCommitsAllSidesFromTheStateBeforeTheEdge :
    Obligations.ACycleCommitsAllSidesFromTheStateBeforeTheEdge := by
  intro s t h
  rw [eq_next_of_step h, State.next_block]

/-- Settles O33: the closed form's records, and the two handshakes need opposite values of `held`. -/
theorem transfersHappenExactlyOnHandshakesAndNeverTogether :
    Obligations.TransfersHappenExactlyOnHandshakesAndNeverTogether := by
  intro s t h
  obtain rfl := eq_next_of_step h
  exact ⟨s.next_accepted, s.next_taken, s.not_inFires_and_outFires⟩

end Sys2Proof.Machine

/-! PROOFS. The family of 10_state.md: the value of SPS, the output ports, and what an edge can do to the
block, from which the datapath invariant, the lock and the life of `held` follow. -/

namespace Sys2Proof.Machine

/-! ### SPS (R26) -/

/-- The floored product of two 32-bit factors, at its largest where both are. -/
theorem Block.spsNat_le (b : Block) : b.spsNat ≤ 18446744065119 := by
  have hprod : b.period.toNat * b.rate.toNat ≤ (2 ^ 32 - 1) * (2 ^ 32 - 1) :=
    Nat.mul_le_mul (Nat.le_pred_of_lt b.period.isLt) (Nat.le_pred_of_lt b.rate.isLt)
  exact Nat.div_le_div_right (c := Config.usPerS) hprod

/-- The product fits 45 bits, so SPS never wraps. -/
theorem Block.sps_toNat (b : Block) : b.sps.toNat = b.period.toNat * b.rate.toNat / 1000000 :=
  Nat.mod_eq_of_lt (Nat.lt_of_le_of_lt b.spsNat_le (by decide))

/-- Settles O26: SPS is the floored product itself, which the corner cases evaluate. -/
theorem spsIsTheExactFlooredProduct : Obligations.SpsIsTheExactFlooredProduct := by
  refine ⟨by decide, fun b => ⟨b.sps_toNat, b.sps_toNat.trans_le b.spsNat_le, ?_, ?_, ?_⟩⟩
  all_goals rw [BitVec.toNat_eq (x := b.sps), b.sps_toNat]
  · simp [Nat.div_eq_zero_iff]
  · intro h
    simp [h]
  · rintro (h | h) <;> simp [h]

/-! ### The ports and the reset values (R41 to R44) -/

/-- Settles O31: the ports of a cycle are `portOut` of the state before the edge. -/
theorem outputPortsAreCombinational : Obligations.OutputPortsAreCombinational := by
  intro s t h
  obtain rfl := eq_next_of_step h
  rw [s.next_pins]
  exact ⟨rfl, rfl, rfl, rfl⟩

/-- Settles O1: the reset block's elements are literals, and its derived values evaluate. -/
theorem resetStateHasTheSpecValues : Obligations.ResetStateHasTheSpecValues :=
  ⟨rfl, rfl, rfl, rfl, rfl, rfl, rfl, rfl, rfl, by decide, rfl, rfl, by decide⟩

/-! ### What an edge can do to the block -/

/-- The seven kinds of edge, each with its guards on the state before it and the block it leaves. -/
inductive Block.Edge (b : Block) (p : PortIn) : Block → Prop where
  /-- RESET (R190). -/
  | reset (hrst : p.rst = true) : b.Edge p Block.reset
  /-- OUT_STALL (R155). -/
  | stall (hrst : p.rst = false) (hheld : b.held = true) (hready : p.outReady = false) :
      b.Edge p (b.nextConfig p)
  /-- EMIT_REPEAT (R152). -/
  | repeatSample (hrst : p.rst = false) (hheld : b.held = true) (hready : p.outReady = true)
      (hslast : b.slast = false) : b.Edge p (b.nextConfig p).nextSample
  /-- EMIT_SYMBOL_END (R153). -/
  | symbolEnd (hrst : p.rst = false) (hheld : b.held = true) (hready : p.outReady = true)
      (hslast : b.slast = true) (hulast : b.ulast = false) : b.Edge p (b.nextConfig p).nextSymbol
  /-- EMIT_UNIT_END (R154). -/
  | unitEnd (hrst : p.rst = false) (hheld : b.held = true) (hready : p.outReady = true)
      (hslast : b.slast = true) (hulast : b.ulast = true) : b.Edge p (b.nextConfig p).release
  /-- OUT_IDLE and IN_NONE (R156, R116). -/
  | noTransfer (hrst : p.rst = false) (hheld : b.held = false) (hfire : (p.inValid && b.en) = false) :
      b.Edge p (b.nextConfig p)
  /-- A unit transfers in (R112 to R115). -/
  | accept (hrst : p.rst = false) (hheld : b.held = false) (hvalid : p.inValid = true)
      (hen : b.en = true) : b.Edge p (holdUnit b.mode p.inData (b.nextConfig p))

/-- Every edge is one of the seven kinds. -/
theorem Block.edge_next (b : Block) (p : PortIn) : b.Edge p (b.next p) := by
  cases hrst : p.rst
  case true => exact Block.next_of_rst b hrst ▸ .reset hrst
  cases hheld : b.held
  case false =>
    cases hfire : p.inValid && b.en
    · exact Block.next_of_no_transfer hrst hheld hfire ▸ .noTransfer hrst hheld hfire
    · obtain ⟨hvalid, hen⟩ := Bool.and_eq_true_iff.mp hfire
      exact Block.next_of_accept hrst hheld hvalid hen ▸ .accept hrst hheld hvalid hen
  case true =>
    cases hready : p.outReady
    · exact Block.next_of_stall hrst hheld hready ▸ .stall hrst hheld hready
    rw [Block.next_of_emit hrst hheld hready]
    cases hslast : b.slast
    · exact .repeatSample hrst hheld hready hslast
    cases hulast : b.ulast
    · exact .symbolEnd hrst hheld hready hslast hulast
    · exact .unitEnd hrst hheld hready hslast hulast

/-- The block a step leaves is one edge away. -/
theorem edge_of_step {s t : State} (h : step s = .next t) : s.block.Edge s.present t.block := by
  obtain rfl := eq_next_of_step h
  exact s.block.edge_next s.present

/-! ### The configuration registers across an edge (R25) -/

@[simp] theorem Block.nextConfig_held (b : Block) (p : PortIn) : (b.nextConfig p).held = b.held := rfl

/-- While the block is locked a configuration write touches EN alone. -/
theorem Block.nextConfig_of_locked {b : Block} (p : PortIn) (h : b.locked = true) :
    b.nextConfig p = { b with en := (b.nextConfig p).en } := by
  have h : (b.en || b.held) = true := h
  simp [Block.nextConfig, h]

/-- SPS reads RATE and PERIOD alone. -/
theorem Block.SameConfig.sps_eq {b c : Block} (h : b.SameConfig c) : c.sps = b.sps := by
  simp [Block.sps, Block.spsNat, h.rate, h.period]

theorem Block.hold_sameConfig (b : Block) (u : Byte) (l : SymIdx) : b.SameConfig (b.hold u l) := by
  unfold Block.hold
  split <;> exact ⟨rfl, rfl, rfl, rfl⟩

theorem holdUnit_sameConfig (m : Mode) (d : Byte) (b : Block) : b.SameConfig (holdUnit m d b) := by
  unfold holdUnit
  split
  · exact b.hold_sameConfig _ _
  split
  · exact b.hold_sameConfig _ _
  split
  · exact b.hold_sameConfig _ _
  · exact ⟨rfl, rfl, rfl, rfl⟩

/-- Without reset the configuration side alone decides the configuration registers. -/
theorem Block.Edge.sameConfig {b c : Block} {p : PortIn} (he : b.Edge p c) (h : p.rst = false) :
    (b.nextConfig p).SameConfig c := by
  cases he with
  | reset hrst => simp [h] at hrst
  | accept => exact holdUnit_sameConfig _ _ _
  | stall | repeatSample | symbolEnd | unitEnd | noTransfer => exact ⟨rfl, rfl, rfl, rfl⟩

/-- Settles O36: only the configuration side writes these registers, and the lock stops it. -/
theorem lockedConfigurationDoesNotChange : Obligations.LockedConfigurationDoesNotChange := by
  intro s t hlocked hrst hstep
  have hc := (edge_of_step hstep).sameConfig hrst
  rw [Block.nextConfig_of_locked s.present hlocked] at hc
  exact ⟨hc.rate, hc.period, hc.mode, hc.sps_eq⟩

/-! ### The datapath invariant (R35) -/

/-- With no unit held, a zero datapath is all the invariant asks. -/
theorem Block.inv_of_idle {b : Block} (hheld : b.held = false)
    (hzero : b.unit = 0#8 ∧ b.bidx = 0#3 ∧ b.lastidx = 0#3 ∧ b.cnt = 0#45) : b.Inv := by
  refine ⟨fun _ => hzero, ?_, ?_, ?_⟩
  all_goals simp [hheld]

theorem Block.reset_inv : Block.reset.Inv := Block.inv_of_idle rfl ⟨rfl, rfl, rfl, rfl⟩

theorem Block.release_inv (b : Block) : b.release.Inv := Block.inv_of_idle rfl ⟨rfl, rfl, rfl, rfl⟩

/-- A held unit's SPS is locked, and an empty datapath needs none. -/
theorem Block.Inv.nextConfig {b : Block} (h : b.Inv) (p : PortIn) : (b.nextConfig p).Inv := by
  cases hheld : b.held
  · exact Block.inv_of_idle hheld (h.idle hheld)
  · rw [Block.nextConfig_of_locked p (by simp [Block.locked, hheld])]
    exact ⟨h.idle, h.counts, h.last, h.textUnit⟩

/-- Short of the symbol's last sample, the count has room for one more. -/
theorem Block.Inv.nextSample {b : Block} (h : b.Inv) (hheld : b.held = true) (hslast : b.slast = false) :
    b.nextSample.Inv := by
  obtain ⟨hsps, hcnt, hbidx⟩ := h.counts hheld
  have hne : b.cnt.toNat + 1 ≠ b.sps.toNat := by simpa [Block.slast] using hslast
  have hcnt' : b.cnt + 1#45 < b.sps := by bv_omega
  exact ⟨by simp [hheld], fun _ => ⟨hsps, hcnt', hbidx⟩, h.last, h.textUnit⟩

/-- Short of the unit's last symbol, the index has room for one more. -/
theorem Block.Inv.nextSymbol {b : Block} (h : b.Inv) (hheld : b.held = true) (hulast : b.ulast = false) :
    b.nextSymbol.Inv := by
  obtain ⟨hsps, hcnt, hbidx⟩ := h.counts hheld
  have hne : b.bidx ≠ b.lastidx := by simpa [Block.ulast] using hulast
  have hcnt' : 0#45 < b.sps := by bv_omega
  have hbidx' : b.bidx + 1#3 ≤ b.lastidx := by bv_omega
  exact ⟨by simp [hheld], fun _ => ⟨hsps, hcnt', hbidx'⟩, h.last, h.textUnit⟩

/-- `Hold` loads the first sample of the first symbol, and only while SPS is not 0. -/
theorem Block.Inv.hold {b : Block} (h : b.Inv) {u : Byte} {l : SymIdx} (hl : l = 0#3 ∨ l = 7#3)
    (hu : l = 0#3 → u = 0x00#8 ∨ u = 0x01#8) : (b.hold u l).Inv := by
  by_cases hsps : b.sps = 0#45
  · rwa [Block.hold_of_sps_zero b u l hsps]
  · rw [Block.hold_of_sps_ne_zero b u l hsps]
    have hcnt : 0#45 < b.sps := by bv_omega
    exact ⟨by simp, fun _ => ⟨hsps, hcnt, Nat.zero_le _⟩, fun _ => hl, fun _ => hu⟩

/-- The units the input side holds have eight symbols, or one of value 0 or 1. -/
theorem Block.Inv.holdUnit {b : Block} (h : b.Inv) (m : Mode) (d : Byte) : (holdUnit m d b).Inv := by
  unfold Machine.holdUnit
  split
  · exact h.hold (.inr rfl) (by simp)
  split
  · exact h.hold (.inl rfl) fun _ => .inr rfl
  split
  · exact h.hold (.inl rfl) fun _ => .inl rfl
  · exact h

/-- Every kind of edge keeps the invariant. A configuration write on the way leaves the datapath and a held
unit's SPS alone, so the guards on `b` hold of the written block too. -/
theorem Block.Edge.inv {b c : Block} {p : PortIn} (he : b.Edge p c) (h : b.Inv) : c.Inv := by
  have hconfig := h.nextConfig p
  have hlocked (hheld : b.held = true) := Block.nextConfig_of_locked p (b := b) (by simp [Block.locked, hheld])
  cases he with
  | reset => exact Block.reset_inv
  | stall | noTransfer => exact hconfig
  | repeatSample _ hheld _ hslast =>
    refine hconfig.nextSample hheld ?_
    rw [hlocked hheld]
    exact hslast
  | symbolEnd _ hheld _ _ hulast => exact hconfig.nextSymbol hheld hulast
  | unitEnd => exact Block.release_inv _
  | accept => exact hconfig.holdUnit _ _

/-- Settles O34: after reset no unit is held and the datapath is zero. -/
theorem resetStateMeetsTheDatapathInvariant : Obligations.ResetStateMeetsTheDatapathInvariant :=
  Block.reset_inv

/-- Settles O35: the block after a step is one edge away, and every edge keeps the invariant. -/
theorem everyStepKeepsTheDatapathInvariant : Obligations.EveryStepKeepsTheDatapathInvariant :=
  fun _ _ hinv hstep => (edge_of_step hstep).inv hinv

/-! ### The life of `held` (R29) -/

/-- The last sample of a held unit's last symbol, taken, is EMIT_UNIT_END's selector (R74, R82). -/
theorem decodeE_formE_of_unitEnd {b : Block} {p : PortIn} (hheld : b.held = true)
    (hready : p.outReady = true) (hslast : b.slast = true) (hulast : b.ulast = true) :
    decodeE (formE b p) = .emitUnitEnd := by
  simp [decodeE, hheld, hready, hslast, hulast]

theorem Block.hold_held_iff {b : Block} (hheld : b.held = false) (u : Byte) (l : SymIdx) :
    (b.hold u l).held = true ↔ b.sps ≠ 0#45 := by
  by_cases hsps : b.sps = 0#45
  · simp [Block.hold_of_sps_zero, hsps, hheld]
  · simp [Block.hold_of_sps_ne_zero, hsps]

/-- The input side holds a unit exactly when it has symbols and SPS is not 0. -/
theorem holdUnit_held_iff {b : Block} (hheld : b.held = false) (m : Mode) (d : Byte) :
    (holdUnit m d b).held = true ↔ b.sps ≠ 0#45 ∧ syms m d ≠ [] := by
  cases m with
  | binary => simp [holdUnit, syms, Block.hold_held_iff hheld]
  | text =>
    by_cases h1 : d = Config.charOne
    · simp [holdUnit, syms, h1, Block.hold_held_iff hheld]
    by_cases h0 : d = Config.charZero
    · subst h0
      simp [holdUnit, syms, h1, Block.hold_held_iff hheld]
    · simp [holdUnit, syms, h1, h0, hheld]

/-- An edge that clears `held` is RESET or EMIT_UNIT_END. -/
theorem Block.Edge.reset_or_unitEnd {b c : Block} {p : PortIn} (he : b.Edge p c) (hb : b.held = true)
    (hc : c.held = false) : p.rst = true ∨ decodeE (formE b p) = .emitUnitEnd := by
  cases he with
  | reset hrst => exact .inl hrst
  | unitEnd _ hheld hready hslast hulast =>
    exact .inr (decodeE_formE_of_unitEnd hheld hready hslast hulast)
  | stall | repeatSample | symbolEnd => simp [hb] at hc
  | noTransfer _ hheld | accept _ hheld => simp [hheld] at hb

/-- An edge that sets `held` accepts a unit with symbols while SPS is not 0. -/
theorem Block.Edge.accept_of_held {b c : Block} {p : PortIn} (he : b.Edge p c) (hb : b.held = false)
    (hc : c.held = true) : p.rst = false ∧ (p.inValid && b.en) = true ∧ b.sps ≠ 0#45
      ∧ syms b.mode p.inData ≠ [] := by
  cases he with
  | accept hrst hheld hvalid hen =>
    obtain ⟨hsps, hsyms⟩ := (holdUnit_held_iff (b := b.nextConfig p) hheld _ _).mp hc
    rw [Block.nextConfig_sps_of_en p hen] at hsps
    exact ⟨hrst, by simp [hvalid, hen], hsps, hsyms⟩
  | reset => cases hc
  | noTransfer => simp [hb] at hc
  | stall _ hheld | repeatSample _ hheld | symbolEnd _ hheld | unitEnd _ hheld => simp [hheld] at hb

/-- Settles O37: of the seven kinds of edge two clear `held` and one sets it. -/
theorem heldChangesOnlyByAcceptUnitEndAndReset :
    Obligations.HeldChangesOnlyByAcceptUnitEndAndReset := by
  intro s t hstep
  have he := edge_of_step hstep
  constructor
  · intro hs ht
    exact (he.reset_or_unitEnd hs ht).imp_right (congrArg Except.ok)
  · intro hs ht
    obtain ⟨hrst, hfire, hsps, hsyms⟩ := he.accept_of_held hs ht
    exact ⟨hrst, (State.transfers_of_idle hrst hs).1.trans hfire, hsps, hsyms⟩

end Sys2Proof.Machine

/-! PROOFS. The family of 20_memory.md: the configuration space read back after a write, the layout of
sample pairs, and the order of the symbols of a BINARY unit. -/

namespace Sys2Proof.Machine

/-! ### The configuration space across an edge (R59, R196) -/

@[simp] theorem cfgView_rate (b : Block) : cfgView 1#3 b = b.rate := rfl
@[simp] theorem cfgView_period (b : Block) : cfgView 2#3 b = b.period := rfl

/-- The CTRL layout: EN below MODE (R77). -/
theorem cfgView_ctrl_toNat (b : Block) : (cfgView 0#3 b).toNat = 2 * b.mode.bit.toNat + b.en.toNat := by
  cases hm : b.mode.bit <;> cases he : b.en <;> simp [cfgView, hm, he]

/-- STATUS aside, the configuration space shows the configuration registers alone. -/
theorem Block.SameConfig.cfgView_eq {b c : Block} (h : b.SameConfig c) {a : CfgAddr} (ha : a ≠ 5#3) :
    cfgView a c = cfgView a b := by
  simp [cfgView, h.en, h.mode, h.rate, h.period, h.sps_eq, ha]

@[simp] theorem Mode.bit_ofBit (x : Bool) : (Mode.ofBit x).bit = x := by cases x <;> rfl

/-- The low two bits of a word, as the CTRL layout weighs them. -/
theorem two_mul_bit_one_add_bit_zero (w : Word) : 2 * w[1].toNat + w[0].toNat = w.toNat % 4 := by
  rw [BitVec.getElem_eq_testBit_toNat, BitVec.getElem_eq_testBit_toNat, Nat.toNat_testBit,
    Nat.toNat_testBit]
  omega

section Write
variable {b : Block} {p : PortIn} (hwe : p.cfgWe = true) (hlock : (b.en || b.held) = false)
include hwe hlock

/-- An unlocked write of RATE shows what was written (R102). -/
theorem cfgView_nextConfig_of_write_rate (ha : p.cfgAddr = 1#3) :
    cfgView 1#3 (b.nextConfig p) = p.cfgWdata := by
  simp [Block.nextConfig, hwe, hlock, ha]

/-- An unlocked write of PERIOD shows what was written (R103). -/
theorem cfgView_nextConfig_of_write_period (ha : p.cfgAddr = 2#3) :
    cfgView 2#3 (b.nextConfig p) = p.cfgWdata := by
  simp [Block.nextConfig, hwe, hlock, ha]

/-- An unlocked write of CTRL shows the two bits that are registers (R101). -/
theorem cfgView_nextConfig_of_write_ctrl (ha : p.cfgAddr = 0#3) :
    (cfgView 0#3 (b.nextConfig p)).toNat = p.cfgWdata.toNat % 4 := by
  rw [cfgView_ctrl_toNat, ← two_mul_bit_one_add_bit_zero]
  simp [Block.nextConfig, hwe, hlock, ha]

end Write

/-- Settles O11: `cfg_rdata` is the view before the edge, and without reset the view after it is that of the
configuration side's write. -/
theorem aWrittenRegisterReadsBackFromTheNextCycle :
    Obligations.AWrittenRegisterReadsBackFromTheNextCycle := by
  intro s t hstep hrst hwe
  have hc := (edge_of_step hstep).sameConfig hrst
  refine ⟨by rw [eq_next_of_step hstep, State.next_pins, portOut_cfgRdata], fun hen hheld => ?_⟩
  have hlock : (s.block.en || s.block.held) = false := by simp [hen, hheld]
  refine ⟨fun ha => ?_, fun ha => ?_, fun ha => ?_⟩
  · rw [hc.cfgView_eq (by decide), cfgView_nextConfig_of_write_rate hwe hlock ha]
  · rw [hc.cfgView_eq (by decide), cfgView_nextConfig_of_write_period hwe hlock ha]
  · rw [hc.cfgView_eq (by decide), cfgView_nextConfig_of_write_ctrl hwe hlock ha]

/-! ### Sample pairs (R53, R76) -/

/-- The LUT drives I by the symbol and leaves Q silent (R130). -/
theorem lut_eq (x : Bool) : lut x = { i := if x then 127#8 else 0#8, q := 0#8 } := by cases x <;> rfl

@[simp] theorem Pair.data_low (x : Pair) : x.data.extractLsb' 0 8 = x.i := BitVec.extractLsb'_append_eq_right

@[simp] theorem Pair.data_high (x : Pair) : x.data.extractLsb' 8 8 = x.q := BitVec.extractLsb'_append_eq_left

/-- Q weighs 256 times I in the packed word. -/
theorem Pair.data_toNat (x : Pair) : x.data.toNat = 256 * x.q.toNat + x.i.toNat := by
  rw [Pair.data, BitVec.toNat_append, ← Nat.shiftLeft_add_eq_or_of_lt x.i.isLt, Nat.shiftLeft_eq]
  omega

/-- Settles O19: the packed word's value and halves; the LUT's four samples are literals. -/
theorem pairsPackQAboveIAndSerialiseIFirst : Obligations.PairsPackQAboveIAndSerialiseIFirst :=
  fun x => ⟨x.data_toNat, rfl, x.data_low, x.data_high, by decide, by decide, by decide, by decide⟩

/-! ### Symbols of a BINARY unit (R52, R117) -/

/-- The symbols of a byte are its bits, in index order. -/
theorem syms_binary (d : Byte) : syms .binary d = (List.range 8).map d.getLsbD := rfl

/-- Symbol `k` is bit `k`, as arithmetic on the byte's value. -/
theorem syms_binary_getElem? (d : Byte) {k : Nat} (hk : k < 8) :
    (syms .binary d)[k]? = some (decide (d.toNat / 2 ^ k % 2 = 1)) := by
  rw [syms_binary, List.getElem?_map, List.getElem?_range hk, Option.map_some, ← BitVec.testBit_toNat,
    Nat.testBit_eq_decide_div_mod_eq]

/-- At SPS 1 a unit's pairs are the LUT entries of its symbols, one each (R157). -/
theorem expand_one (m : Mode) (d : Byte) : expand m 1#45 d = (syms m d).map lut :=
  List.map_eq_flatMap.symm

/-- Settles O45: each symbol is a bit of the byte, and at SPS 1 the pairs are the symbols' LUT entries. -/
theorem binarySymbolsAreTheBitsLeastSignificantFirst :
    Obligations.BinarySymbolsAreTheBitsLeastSignificantFirst := by
  intro d k hk
  have hsym := syms_binary_getElem? d hk
  refine ⟨hsym, ?_⟩
  rw [expand_one, List.getElem?_map, hsym, Option.map_some, lut_eq]
  simp only [decide_eq_true_eq]

end Sys2Proof.Machine

/-! PROOFS. The family of 30_encoding.md: the decoder against the encoder and the operation map, STATUS,
the lines of a stimulus program, and how a cycle selects and a table word is placed. -/

namespace Sys2Proof

/-! ### Format C and U words by their fields (R71, R72) -/

section Fields
variable (op : BitVec 4) (v : Word) (fm : BitVec 2) (d : Byte)

@[simp] theorem wordC_we : (op ++ v : BitVec 36)[35] = op[3] := by
  rw [BitVec.getElem_append, dif_neg (by decide)]

@[simp] theorem wordC_addr : (op ++ v : BitVec 36).extractLsb' 32 3 = op.extractLsb' 0 3 :=
  BitVec.extractLsb'_append_eq_of_le (xlo := v) (Nat.le_refl 32)

@[simp] theorem wordC_addr_lsb : (op ++ v : BitVec 36).extractLsb' 32 1 = op.extractLsb' 0 1 :=
  BitVec.extractLsb'_append_eq_of_le (xlo := v) (Nat.le_refl 32)

@[simp] theorem wordC_wdata : (op ++ v : BitVec 36).extractLsb' 0 32 = v :=
  BitVec.extractLsb'_append_eq_right

@[simp] theorem wordU_fire : (fm ++ d : BitVec 10)[9] = fm[1] := by
  rw [BitVec.getElem_append, dif_neg (by decide)]

@[simp] theorem wordU_mode : (fm ++ d : BitVec 10)[8] = fm[0] := by
  rw [BitVec.getElem_append, dif_neg (by decide)]

@[simp] theorem wordU_data : (fm ++ d : BitVec 10).extractLsb' 0 8 = d :=
  BitVec.extractLsb'_append_eq_right

end Fields

/-- One bit of a word, cut out. -/
theorem ofBool_getElem {n k : Nat} (w : BitVec n) (hk : k < n) : BitVec.ofBool w[k] = w.extractLsb' k 1 := by
  ext i hi
  obtain rfl : i = 0 := by omega
  simp [hk]

/-- Two neighbouring pieces of a word, put together. -/
theorem append_pieces {n lo len : Nat} (w : BitVec n) (len' : Nat) :
    w.extractLsb' (lo + len) len' ++ w.extractLsb' lo len = w.extractLsb' lo (len' + len) :=
  BitVec.extractLsb'_append_extractLsb'_eq_extractLsb' rfl

/-- A format C word is its WE, ADDR and WDATA. -/
theorem wordC_eq_fields (w : BitVec 36) :
    BitVec.ofBool w[35] ++ w.extractLsb' 32 3 ++ w.extractLsb' 0 32 = w := by
  rw [ofBool_getElem, append_pieces (lo := 32) (len := 3) w 1, append_pieces (lo := 0) (len := 32) w 4,
    BitVec.extractLsb'_eq_self]

/-- A format U word is its FIRE, MODE and DATA. -/
theorem wordU_eq_fields (w : BitVec 10) :
    BitVec.ofBool w[9] ++ BitVec.ofBool w[8] ++ w.extractLsb' 0 8 = w := by
  rw [ofBool_getElem, ofBool_getElem, append_pieces (lo := 8) (len := 1) w 1,
    append_pieces (lo := 0) (len := 8) w 2, BitVec.extractLsb'_eq_self]

/-! ### Decoding an encoded operation (R85) -/

/-- Addresses 6 and 7, told apart by their last bit, are no register's (R107). -/
theorem decodeC_unmapped (b : BitVec 1) (v : Word) :
    decodeC (0b111#3 ++ b ++ v) = .cfgWrUnmapped b v := by
  obtain rfl | rfl := BitVec.eq_zero_or_eq_one b
  all_goals simp [decodeC]

theorem decodeC_read (a : CfgAddr) (v : Word) : decodeC (0#1 ++ a ++ v) = .cfgRd a := by
  have hwe : (0#1 ++ a : BitVec 4)[3] = false := by revert a; decide
  have haddr : (0#1 ++ a : BitVec 4).extractLsb' 0 3 = a := BitVec.extractLsb'_append_eq_right
  simp [decodeC, hwe, haddr]

/-- Settles O51: the decoder reads from the written word's fields what the encoder put there. -/
theorem decodeOfEncodeIsTheOperation : Obligations.DecodeOfEncodeIsTheOperation := by
  intro i hwf
  cases i with
  | cfgRd a => exact congrArg Except.ok (decodeC_read a 0#32)
  | cfgWrUnmapped b v => exact congrArg Except.ok (decodeC_unmapped b v)
  | cfgWrCtrl | cfgWrRate | cfgWrPeriod | cfgWrSpsLo | cfgWrSpsHi | cfgWrStatus =>
    simp [encode, decode, decodeC]
  | unitBin => simp [encode, decode, decodeU]
  | unitTxtSkip d =>
    have hd : d ≠ Config.charOne ∧ d ≠ Config.charZero := by simpa [Instr.wellFormed] using hwf
    simp [encode, decode, decodeU, hd]
  | inNone | unitTxtOne | unitTxtZero | mapOne | mapZero | outIdle | outStall | emitRepeat
  | emitSymbolEnd | emitUnitEnd | reset => rfl

/-! ### Encoding a decoded word -/

/-- A write has no don't-care bits, so encoding it gives its word back. -/
theorem encode_decodeC_of_write {w : BitVec 36} (hwe : w[35] = true) : encode (decodeC w) = .c w := by
  conv_rhs => rw [← wordC_eq_fields w, hwe]
  simp only [decodeC, hwe, Bool.true_eq_false, if_false]
  split_ifs with h0 h1 h2 h3 h4 h5
  case neg =>
    rw [← Machine.unmapped_addr w h0 h1 h2 h3 h4 h5]
    generalize w.extractLsb' 32 1 = lsb
    obtain rfl | rfl := BitVec.eq_zero_or_eq_one lsb <;> rfl
  all_goals
    rw [‹w.extractLsb' 32 3 = _›]
    rfl

/-- A transfer has no don't-care bits, so encoding it gives its word back. -/
theorem encode_decodeU_of_fire {w : BitVec 10} (hfire : w[9] = true) : encode (decodeU w) = .u w := by
  conv_rhs => rw [← wordU_eq_fields w, hfire]
  simp only [decodeU, hfire, Bool.true_eq_false, if_false]
  cases w[8]
  · rfl
  simp only [Bool.true_eq_false, if_false]
  split
  · next h => rw [h]; rfl
  split
  · next h => rw [h]; rfl
  · rfl

/-! ### The rows of the operation map (R82 to R84) -/

/-- The one word of format R that selects (R75). -/
theorem eq_reset_of_decodeR {w : BitVec 1} {i : Instr} (h : decodeR w = .ok i) : w = 1#1 ∧ i = .reset := by
  obtain rfl | rfl := BitVec.eq_zero_or_eq_one w
  · cases h
  · exact ⟨rfl, (Except.ok.inj h).symm⟩

/-- Every word of every format but format R value 0 decodes (R83). -/
theorem eq_zero_of_decode_error {sel : Selector} {e : Reject} (h : decode sel = .error e) : sel = .r 0#1 := by
  cases sel with
  | r w =>
    obtain rfl | rfl := BitVec.eq_zero_or_eq_one w
    · rfl
    · cases h
  | c | u | l | e => cases h

theorem decodeC_wellFormed (w : BitVec 36) : (decodeC w).wellFormed = true := by
  simp only [decodeC]
  repeat' split
  all_goals rfl

/-- The priority of R84 keeps the two symbol characters from UNIT_TXT_SKIP. -/
theorem decodeU_wellFormed (w : BitVec 10) : (decodeU w).wellFormed = true := by
  simp only [decodeU]
  repeat' split
  case isFalse.isFalse.isFalse.isFalse h1 h0 => simp [Instr.wellFormed, h1, h0]
  all_goals rfl

theorem decode_wellFormed {sel : Selector} {i : Instr} (h : decode sel = .ok i) : i.wellFormed = true := by
  cases sel with
  | c w => exact Except.ok.inj h ▸ decodeC_wellFormed w
  | u w => exact Except.ok.inj h ▸ decodeU_wellFormed w
  | l w =>
    obtain rfl := Except.ok.inj h
    revert w; decide
  | e w =>
    obtain rfl := Except.ok.inj h
    revert w; decide
  | r w =>
    obtain ⟨-, rfl⟩ := eq_reset_of_decodeR h
    rfl

/-- Every operation's own word is one its row selects. -/
theorem row_selects_encode (i : Instr) (hwf : i.wellFormed = true) : i.row.selects (encode i) = true := by
  cases i with
  | cfgRd a => exact Laws.RowMatches.cfgRd a hwf
  | cfgWrCtrl v => exact Laws.RowMatches.cfgWrCtrl v hwf
  | cfgWrRate v => exact Laws.RowMatches.cfgWrRate v hwf
  | cfgWrPeriod v => exact Laws.RowMatches.cfgWrPeriod v hwf
  | cfgWrSpsLo v => exact Laws.RowMatches.cfgWrSpsLo v hwf
  | cfgWrSpsHi v => exact Laws.RowMatches.cfgWrSpsHi v hwf
  | cfgWrStatus v => exact Laws.RowMatches.cfgWrStatus v hwf
  | cfgWrUnmapped b v => exact Laws.RowMatches.cfgWrUnmapped b v hwf
  | inNone => exact Laws.RowMatches.inNone hwf
  | unitBin d => exact Laws.RowMatches.unitBin d hwf
  | unitTxtOne => exact Laws.RowMatches.unitTxtOne hwf
  | unitTxtZero => exact Laws.RowMatches.unitTxtZero hwf
  | unitTxtSkip d => exact Laws.RowMatches.unitTxtSkip d hwf
  | mapOne => exact Laws.RowMatches.mapOne hwf
  | mapZero => exact Laws.RowMatches.mapZero hwf
  | outIdle => exact Laws.RowMatches.outIdle hwf
  | outStall => exact Laws.RowMatches.outStall hwf
  | emitRepeat => exact Laws.RowMatches.emitRepeat hwf
  | emitSymbolEnd => exact Laws.RowMatches.emitSymbolEnd hwf
  | emitUnitEnd => exact Laws.RowMatches.emitUnitEnd hwf
  | reset => exact Laws.RowMatches.reset hwf

/-- CFG_RD's row looks at WE alone. -/
theorem cfgRd_row_selects {w : BitVec 36} (a : CfgAddr) (hwe : w[35] = false) :
    (Instr.cfgRd a).row.selects (.c w) = true := by
  rw [← wordC_eq_fields w, hwe]
  have hop : ∀ x : CfgAddr, ((0#1 ++ x : BitVec 4) &&& 0b1000#4).toNat <<< 32 = 0 := by decide
  exact Laws.selects_c rfl rfl (hop _).symm rfl

/-- IN_NONE's row looks at FIRE alone. -/
theorem inNone_row_selects {w : BitVec 10} (hfire : w[9] = false) :
    Instr.inNone.row.selects (.u w) = true := by
  have hbit : w.toNat &&& 512 = 0 := by
    rw [show 512 = 2 ^ 9 from rfl, Nat.and_two_pow, ← BitVec.getElem_eq_testBit_toNat w 9 (by decide), hfire]
    rfl
  simp [Row.selects, Instr.row, Selector.format, Selector.toNat, hbit]

/-- A word is one of those its operation's row selects. -/
theorem row_selects_of_decode {sel : Selector} {i : Instr} (h : decode sel = .ok i) :
    i.row.selects sel = true := by
  cases sel with
  | c w =>
    obtain rfl := Except.ok.inj h
    cases hwe : w[35]
    · simpa [decodeC, hwe] using cfgRd_row_selects _ hwe
    · exact encode_decodeC_of_write hwe ▸ row_selects_encode _ (decodeC_wellFormed w)
  | u w =>
    obtain rfl := Except.ok.inj h
    cases hfire : w[9]
    · simpa [decodeU, hfire] using inNone_row_selects hfire
    · exact encode_decodeU_of_fire hfire ▸ row_selects_encode _ (decodeU_wellFormed w)
  | l w =>
    obtain rfl := Except.ok.inj h
    revert w; decide
  | e w =>
    obtain rfl := Except.ok.inj h
    revert w; decide
  | r w =>
    obtain ⟨rfl, rfl⟩ := eq_reset_of_decodeR h
    rfl

theorem Row.selects_iff (row : Row) (sel : Selector) :
    row.selects sel = true ↔
      row.format = sel.format ∧ sel.toNat &&& row.mask = row.pat ∧ sel.toNat ∉ row.exclude := by
  simp [Row.selects, and_assoc]

theorem Selector.toNat_lt (sel : Selector) : sel.toNat < 2 ^ sel.format.width := by
  cases sel <;> exact BitVec.isLt _

/-- Two rows that no word is of both: they differ in format or in a bit that both look at, or the first is
of one word alone, which the second excludes. -/
def Row.apart (r r' : Row) : Bool :=
  r.format != r'.format || r.pat &&& r'.mask != r'.pat &&& r.mask
    || (r.mask == 2 ^ r.format.width - 1 && r'.exclude.contains r.pat)

theorem Row.not_both_select_of_apart {r r' : Row} {sel : Selector} (h : r.apart r' = true) :
    ¬ (r.selects sel = true ∧ r'.selects sel = true) := by
  rintro ⟨hr, hr'⟩
  obtain ⟨hformat, hpat, -⟩ := (r.selects_iff sel).mp hr
  obtain ⟨hformat', hpat', hexclude⟩ := (r'.selects_iff sel).mp hr'
  simp only [Row.apart, Bool.or_eq_true, Bool.and_eq_true, bne_iff_ne, beq_iff_eq,
    List.contains_iff_mem] at h
  obtain (h | h) | ⟨hmask, h⟩ := h
  · exact h (hformat.trans hformat'.symm)
  · exact h (by rw [← hpat, ← hpat', Nat.and_right_comm])
  · rw [hmask, hformat, Nat.and_two_pow_sub_one_of_lt_two_pow sel.toNat_lt] at hpat
    exact hexclude (hpat ▸ h)

/-- The rows of the map are apart two by two (R83, R84). -/
theorem opcodeTable_pairwise_apart : opcodeTable.Pairwise fun r r' => r.apart r' = true := by decide

/-- At most one row selects a word. -/
theorem opcodeTable_row_unique {sel : Selector} {r r' : Row} (hr : r ∈ opcodeTable) (hr' : r' ∈ opcodeTable)
    (hs : r.selects sel = true) (hs' : r'.selects sel = true) : r = r' := by
  have hpairs : opcodeTable.Pairwise fun x y => ¬ (x.selects sel = true ∧ y.selects sel = true) :=
    opcodeTable_pairwise_apart.imp Row.not_both_select_of_apart
  have : Std.Symm fun x y : Row => ¬ (x.selects sel = true ∧ y.selects sel = true) :=
    ⟨fun _ _ h hs => h hs.symm⟩
  by_contra hne
  exact hpairs.forall hr hr' hne ⟨hs, hs'⟩

theorem row_mem_opcodeTable (i : Instr) : i.row ∈ opcodeTable := by
  cases i <;> simp [opcodeTable, Instr.samples, Instr.row]

/-- A word that decodes is one of exactly one row, its operation's. -/
theorem row_unique_of_decode {sel : Selector} {i : Instr} (h : decode sel = .ok i) :
    i.wellFormed = true ∧ i.row ∈ opcodeTable ∧ i.row.selects sel = true
      ∧ ∀ row ∈ opcodeTable, row.selects sel = true → row = i.row :=
  ⟨decode_wellFormed h, row_mem_opcodeTable i, row_selects_of_decode h, fun _ hrow hs =>
    opcodeTable_row_unique hrow (row_mem_opcodeTable i) hs (row_selects_of_decode h)⟩

/-- Settles O52: the decoder gives an operation for every word but format R value 0, and its row alone
selects the word. -/
theorem everyWordMatchesExactlyTheRowItDecodesTo : Obligations.EveryWordMatchesExactlyTheRowItDecodesTo := by
  refine ⟨rfl, fun sel => ?_⟩
  cases h : decode sel with
  | ok i => exact .inr ⟨i, rfl, row_unique_of_decode h⟩
  | error e =>
    obtain rfl := eq_zero_of_decode_error h
    exact .inl ⟨rfl, by decide⟩

end Sys2Proof

namespace Sys2Proof.Machine

/-! ### Words of the spec and of stimulus lines (R82, R88) -/

/-- Settles O54: nine fixed words, each evaluated by the decoder. -/
theorem wordsOfTheSpecDecodeAsTheSpecSays : Obligations.WordsOfTheSpecDecodeAsTheSpecSays :=
  ⟨rfl, rfl, rfl, rfl, rfl, rfl, rfl, rfl, rfl⟩

theorem Mode.bit_eq_decide (m : Mode) : m.bit = decide (m = .text) := by cases m <;> rfl

/-- Settles O53: a `wr` or `rd` line's word is written out by the ports it drives, a `unit` line's by the
fields of format U. -/
theorem stimulusLinesFormTheStatedWords : Obligations.StimulusLinesFormTheStatedWords := by
  intro reg v d on b
  have hrate : (1#1 ++ regRATE ++ 2000000#32 : BitVec 36) = 0x9001E8480#36 := by decide
  have hstatus : (0#1 ++ regSTATUS ++ 0#32 : BitVec 36) = 0x500000000#36 := by decide
  refine ⟨rfl, hrate, rfl, hstatus, formU_data b _, ?_, rfl⟩
  rw [BitVec.getLsbD_eq_getElem (by decide), formU_mode, Mode.bit_eq_decide]

/-! ### STATUS (R80) -/

@[simp] theorem cfgView_status (b : Block) : cfgView 5#3 b = b.status := rfl

/-- Bit 0 of STATUS is BUSY. -/
@[simp] theorem Block.status_getLsbD_zero (b : Block) : b.status.getLsbD 0 = b.held := by
  rw [Block.status, BitVec.getLsbD_setWidth, BitVec.getLsbD_append]
  simp [Block.busy]

/-- A held unit needs symbols, so SPS is not 0 and STATUS reads 3. -/
theorem Block.Inv.status_of_held {b : Block} (h : b.Inv) (hheld : b.held = true) : b.status = 3#32 := by
  have hsps : b.spsZero = false := by simpa [Block.spsZero] using (h.counts hheld).1
  simp [Block.status, Block.locked, Block.busy, hheld, hsps]

/-- With no unit held LOCKED is EN. -/
theorem Block.status_of_idle {b : Block} (hheld : b.held = false) :
    b.status = if b.en then (if b.sps.toNat = 0 then 6#32 else 2#32)
      else if b.sps.toNat = 0 then 4#32 else 0#32 := by
  have hsps : b.spsZero = decide (b.sps.toNat = 0) := decide_eq_decide.mpr BitVec.toNat_eq
  cases hen : b.en <;> by_cases hz : b.sps.toNat = 0 <;>
    simp [Block.status, Block.locked, Block.busy, hheld, hen, hsps, hz]

/-- Settles O27: by whether a unit is held. -/
theorem statusShowsOnlyTheReachableCombinations : Obligations.StatusShowsOnlyTheReachableCombinations := by
  intro b hinv
  rw [cfgView_status]
  cases hheld : b.held
  · exact Block.status_of_idle hheld
  · exact hinv.status_of_held hheld

/-! ### Waiting lines (R86, R87) -/

section FirstLine
variable {s : State} {l : Line} {ls : List Line}

/-- A script whose first line takes a cycle is what is pending. -/
theorem State.pending_of_settled (h : s.script = l :: ls) (hl : settleLines (l :: ls) = l :: ls) :
    s.pending = l :: ls := by
  simp [State.pending, h, hl]

theorem State.present_of_pending (h : s.pending = l :: ls) : s.present = l.ports s.level := by
  simp [State.present, h, scriptPorts]

end FirstLine

/-- Settles O57: the line drives its ports in the cycle, and what is left of it is decided by the transfer,
or by BUSY, bit 0 of the STATUS read. -/
theorem waitingLinesStayUntilTheirEvent : Obligations.WaitingLinesStayUntilTheirEvent := by
  intro s t v ls hstep
  obtain rfl := eq_next_of_step hstep
  constructor
  · intro hscript
    have hpending := State.pending_of_settled hscript rfl
    have hports : s.present = (Line.unit v).ports s.level := State.present_of_pending hpending
    have hfires : s.inFires = (s.block.en && !s.block.held) := by
      simp [State.inFires, inReady, hports, Line.ports, undriven]
    refine ⟨by rw [hports]; rfl, by rw [hports]; rfl, ?_⟩
    rw [State.next_script, hpending, hfires]
    cases h : s.block.en && !s.block.held <;> simp [scriptRest, Line.rest, h]
  · intro hscript
    have hpending := State.pending_of_settled hscript rfl
    have hports : s.present = Line.waitIdle.ports s.level := State.present_of_pending hpending
    constructor
    · rw [State.next_reads, hpending, hports]
      rfl
    · rw [State.next_script, hpending, cfgView_status, Block.status_getLsbD_zero]
      cases h : s.block.held <;> simp [scriptRest, Line.rest, Block.busy, h]

/-! ### What a cycle runs (R70) -/

/-- Settles O28: the selection law of a cycle, with the operations named by the decoder. -/
theorem aStepRunsTheDecodedOperations : Obligations.AStepRunsTheDecodedOperations := by
  intro s
  refine ⟨fun hrst => step_of_rst hrst, fun hrst ic il ie iu hc hl he hu => ?_, rfl, ⟨rfl, rfl⟩, rfl⟩
  obtain rfl := Except.ok.inj hc
  obtain rfl := Except.ok.inj hl
  obtain rfl := Except.ok.inj he
  obtain rfl := Except.ok.inj hu
  rw [step, cycle, selected_of_not_rst hrst]

/-! ### Placing a table word (log entries 8 and 9) -/

theorem leNat_leBytes (n w : Nat) : leNat (leBytes n w) = w % 256 ^ n := by
  induction n generalizing w with
  | zero => simp [leNat, leBytes, Nat.mod_one]
  | succ n ih =>
    have hcons : leNat (leBytes (n + 1) w) = w % 256 + 256 * leNat (leBytes n (w / 256)) := rfl
    rw [hcons, ih, Nat.pow_succ', Nat.mod_mul]

theorem leBytes_length (n w : Nat) : (leBytes n w).length = n := by
  induction n generalizing w with
  | zero => rfl
  | succ n ih => exact congrArg (· + 1) (ih _)

/-- A word that fits its format's bytes is read from them as itself. -/
theorem decodeBytes_leBytes {f : Format} {w : Nat} (h : w < 256 ^ f.bytes) {i : Instr} {rest : List Byte}
    (hd : decodeBytes f (leBytes f.bytes w) = .ok (i, rest)) :
    w < 2 ^ f.width ∧ decode (f.selector w) = .ok i := by
  have hlen := leBytes_length f.bytes w
  have hvalue : leNat ((leBytes f.bytes w).take f.bytes) = w := by
    rw [List.take_of_length_le hlen.le, leNat_leBytes, Nat.mod_eq_of_lt h]
  simp only [decodeBytes, hlen, Nat.lt_irrefl, if_false, hvalue] at hd
  split at hd
  · cases hd
  · cases hdec : decode (f.selector w) with
    | error e => simp [hdec, Except.map] at hd
    | ok j =>
      simp only [hdec, Except.map, Except.ok.injEq, Prod.mk.injEq] at hd
      exact ⟨by omega, by rw [hd.1]⟩

/-- What a table word decodes to is decoded from the selector it stands for. -/
theorem tableSelector_of_decodeTableWord {nbits w : Nat} {i : Instr} (h : decodeTableWord nbits w = some i) :
    ∃ sel, tableSelector nbits w = some sel ∧ decode sel = .ok i := by
  simp only [decodeTableWord, Option.bind_eq_some_iff] at h
  obtain ⟨f, hf, h⟩ := h
  split at h
  · next hw =>
    split at h
    · next j rest hd =>
      obtain ⟨hwidth, hdec⟩ := decodeBytes_leBytes hw hd
      obtain rfl := Option.some.inj h
      exact ⟨f.selector w, by simp [tableSelector, hf, hwidth], hdec⟩
    · cases h
  · cases h

/-- The cycle put before the script is the present one. -/
@[simp] theorem State.present_driveNext (s : State) (p : PortIn) : (s.driveNext p).present = p := rfl

@[simp] theorem State.block_driveNext (s : State) (p : PortIn) : (s.driveNext p).block = s.block := rfl

/-- RATE and PERIOD at their reset values, or as they are, leave room for both values of SLAST. -/
theorem Block.two_le_withRoom_sps (b : Block) : 2 ≤ b.withRoom.sps.toNat := by
  unfold Block.withRoom
  split
  · have hreset : { b with rate := Config.resetRate, period := Config.resetPeriod }.sps = Block.reset.sps := rfl
    rw [hreset]
    decide
  · omega

section HoldingAt
variable (b : Block) (slast ulast : Bool)

theorem Block.holdingAt_sps : (b.holdingAt slast ulast).sps = b.withRoom.sps := rfl

@[simp] theorem Block.holdingAt_held : (b.holdingAt slast ulast).held = true := rfl

@[simp] theorem Block.holdingAt_ulast : (b.holdingAt slast ulast).ulast = ulast := by
  cases ulast <;> rfl

@[simp] theorem Block.holdingAt_slast : (b.holdingAt slast ulast).slast = slast := by
  have hroom := b.two_le_withRoom_sps
  have hcnt : (b.holdingAt slast ulast).cnt = if slast then b.withRoom.sps - 1#45 else 0#45 := rfl
  rw [Block.slast, Block.holdingAt_sps, hcnt]
  cases slast
  · exact beq_eq_false_iff_ne.mpr (by simp; omega)
  · exact beq_iff_eq.mpr (by simp only [if_true]; bv_omega)

end HoldingAt

/-- The block that holds a TEXT unit of one symbol looks that symbol up. -/
@[simp] theorem Block.holdingSymbol_sym (b : Block) (x : Bool) : (b.holdingSymbol x).sym = x := by
  simp [Block.holdingSymbol, Block.sym]

@[simp] theorem Block.holdingSymbol_held (b : Block) (x : Bool) : (b.holdingSymbol x).held = true := rfl

@[simp] theorem Block.idleDatapath_held (b : Block) : b.idleDatapath.held = false := rfl

/-! What the next cycle selects where a word of each format is placed. The decoders read a word by its
fields, so for formats E and U it is enough that the formed word has the placed word's fields, those below a
clear HELD or FIRE excepted. -/

section Placed
variable {s : State} {i : Instr}

theorem mem_selected_placed_c {w : BitVec 36} (h : decode (.c w) = .ok i) :
    i ∈ selected (placeSelector (.c w) s).block (placeSelector (.c w) s).present := by
  have hform : formC (placeSelector (.c w) s).present = w := wordC_eq_fields w
  obtain rfl := Except.ok.inj h
  rw [selected_of_not_rst rfl, hform]
  exact List.mem_cons_self

theorem mem_selected_placed_r {w : BitVec 1} (h : decode (.r w) = .ok i) :
    i ∈ selected (placeSelector (.r w) s).block (placeSelector (.r w) s).present := by
  obtain ⟨rfl, rfl⟩ := eq_reset_of_decodeR h
  rw [selected_of_rst rfl]
  exact List.mem_singleton_self _

theorem mem_selected_placed_l {w : BitVec 1} (h : decode (.l w) = .ok i) :
    i ∈ selected (placeSelector (.l w) s).block (placeSelector (.l w) s).present := by
  have hform : formL (s.block.holdingSymbol w[0]) = w := by
    rw [formL, Block.holdingSymbol_sym, ofBool_getElem, BitVec.extractLsb'_eq_self]
  obtain rfl := Except.ok.inj h
  simp [placeSelector, selected_of_not_rst, State.quietPorts, undriven, hform]

theorem mem_selected_placed_e {w : BitVec 4} (h : decode (.e w) = .ok i) :
    i ∈ selected (placeSelector (.e w) s).block (placeSelector (.e w) s).present := by
  obtain rfl := Except.ok.inj h
  cases hheld : w[3] <;>
    simp [placeSelector, selected_of_not_rst, State.quietPorts, undriven, decodeE, hheld]

theorem mem_selected_placed_u {w : BitVec 10} (h : decode (.u w) = .ok i) :
    i ∈ selected (placeSelector (.u w) s).block (placeSelector (.u w) s).present := by
  obtain rfl := Except.ok.inj h
  cases hfire : w[9] <;>
    simp [placeSelector, selected_of_not_rst, State.quietPorts, undriven, decodeU, inReady, hfire]

end Placed

theorem mem_selected_placeSelector {s : State} {sel : Selector} {i : Instr} (h : decode sel = .ok i) :
    i ∈ selected (placeSelector sel s).block (placeSelector sel s).present := by
  cases sel with
  | c w => exact mem_selected_placed_c h
  | u w => exact mem_selected_placed_u h
  | l w => exact mem_selected_placed_l h
  | e w => exact mem_selected_placed_e h
  | r w => exact mem_selected_placed_r h

/-- Settles O29: the word stands for a selector, and the next cycle of the placed state forms it. -/
theorem aPlacedTableWordRunsInTheNextStep : Obligations.APlacedTableWordRunsInTheNextStep := by
  intro s nbits w i h
  obtain ⟨sel, hsel, hdec⟩ := tableSelector_of_decodeTableWord h
  simp only [State.withFetchWord, placeTableWord, hsel]
  exact mem_selected_placeSelector hdec

end Sys2Proof.Machine

/-! PROOFS. The family of 40_configuration.md: the value of every view, the operation of every format C word,
and how little the configuration and the stream sides read of each other. -/

namespace Sys2Proof.Machine

/-! ### The views (R100) -/

/-- The low word of SPS (R79). -/
theorem cfgView_spsLo_toNat (b : Block) : (cfgView 3#3 b).toNat = b.sps.toNat % 2 ^ 32 :=
  BitVec.extractLsb'_toNat 0 32 b.sps

/-- The 13 bits of SPS above its low word (R79). -/
theorem cfgView_spsHi_toNat (b : Block) : (cfgView 4#3 b).toNat = b.sps.toNat / 2 ^ 32 := by
  have hfits : b.sps.toNat / 2 ^ 32 < 2 ^ 13 := Nat.div_lt_of_lt_mul b.sps.isLt
  calc (cfgView 4#3 b).toNat
    _ = ((b.sps.extractLsb' 32 13).setWidth 32).toNat := rfl
    _ = (b.sps.extractLsb' 32 13).toNat := BitVec.toNat_setWidth_of_le (by decide)
    _ = b.sps.toNat / 2 ^ 32 := by
      rw [BitVec.extractLsb'_toNat, Nat.shiftRight_eq_div_pow, Nat.mod_eq_of_lt hfits]

/-- The STATUS layout: BUSY below LOCKED below SPS_ZERO (R80). -/
theorem Block.status_toNat (b : Block) :
    b.status.toNat = 4 * (decide (b.sps.toNat = 0)).toNat + 2 * (b.en || b.held).toNat + b.held.toNat := by
  have hzero : b.spsZero = decide (b.sps.toNat = 0) := decide_eq_decide.mpr BitVec.toNat_eq
  rw [Block.status, hzero, Block.locked, Block.busy]
  generalize decide (b.sps.toNat = 0) = z
  generalize (b.en || b.held) = l
  generalize b.held = h
  revert z l h
  decide

/-- The view of every address, as a number. -/
theorem cfgView_toNat (a : CfgAddr) (b : Block) :
    (cfgView a b).toNat =
      if a.toNat = 0 then 2 * b.mode.bit.toNat + b.en.toNat
      else if a.toNat = 1 then b.rate.toNat
      else if a.toNat = 2 then b.period.toNat
      else if a.toNat = 3 then b.sps.toNat % 2 ^ 32
      else if a.toNat = 4 then b.sps.toNat / 2 ^ 32
      else if a.toNat = 5 then
        4 * (decide (b.sps.toNat = 0)).toNat + 2 * (b.en || b.held).toNat + b.held.toNat
      else 0 := by
  obtain ⟨⟨n, hn⟩⟩ := a
  interval_cases n
  · exact cfgView_ctrl_toNat b
  · exact congrArg BitVec.toNat (cfgView_rate b)
  · exact congrArg BitVec.toNat (cfgView_period b)
  · exact cfgView_spsLo_toNat b
  · exact cfgView_spsHi_toNat b
  · exact b.status_toNat
  · rfl
  · rfl

/-- Addresses 6 and 7 read as 0 (R107). -/
theorem cfgView_unmapped (lsb : BitVec 1) (b : Block) : cfgView (0b11#2 ++ lsb) b = 0#32 := by
  obtain rfl | rfl := BitVec.eq_zero_or_eq_one lsb <;> rfl

/-! ### A read, then a write of the block: the shape of every configuration operation -/

theorem State.sameBench_driveRead_setBlock (s : State) (a : CfgAddr) (b : Block) :
    s.SameBench ((s.driveRead a).setBlock b) := ⟨rfl, rfl, rfl, rfl⟩

theorem State.sameStreams_driveRead_setBlock (s : State) (a : CfgAddr) (b : Block) :
    s.SameStreams ((s.driveRead a).setBlock b) := ⟨rfl, rfl⟩

/-- Settles O4: CFG_RD drives the view and nothing else, and every cycle's ports show the view too. -/
theorem cfgRdReturnsTheViewOfItsAddress : Obligations.CfgRdReturnsTheViewOfItsAddress := by
  refine ⟨fun a s => ?_, fun a v => congrArg Except.ok (decodeC_read a v), fun s t hstep => ?_⟩
  · exact ⟨s.driveRead a, rfl, rfl, s.sameBench_driveRead_setBlock a s.block,
      s.sameStreams_driveRead_setBlock a s.block, rfl, rfl, rfl, cfgView_toNat a s.block⟩
  · rw [eq_next_of_step hstep, State.next_pins, portOut_cfgRdata]

/-! ### The three writable registers (R101 to R103) -/

theorem Block.writeCtrl_eq (v : Word) (b : Block) :
    b.writeCtrl v = { b with
      en := v.getLsbD 0
      mode := if b.en || b.held then b.mode else if v.getLsbD 1 then .text else .binary } := rfl

theorem Block.writeRate_eq (v : Word) (b : Block) :
    b.writeRate v = if b.en || b.held then b else { b with rate := v } := rfl

theorem Block.writePeriod_eq (v : Word) (b : Block) :
    b.writePeriod v = if b.en || b.held then b else { b with period := v } := rfl

/-- SPS follows an unlocked write of RATE. -/
theorem Block.writeRate_sps_toNat {b : Block} (v : Word) (hen : b.en = false) (hheld : b.held = false) :
    (b.writeRate v).sps.toNat = b.period.toNat * v.toNat / 1000000 := by
  simp [Block.writeRate_eq, hen, hheld, Block.sps_toNat]

/-- SPS follows an unlocked write of PERIOD. -/
theorem Block.writePeriod_sps_toNat {b : Block} (v : Word) (hen : b.en = false) (hheld : b.held = false) :
    (b.writePeriod v).sps.toNat = v.toNat * b.rate.toNat / 1000000 := by
  simp [Block.writePeriod_eq, hen, hheld, Block.sps_toNat]

/-- Settles O5: the state after is a read of CTRL and `Block.writeCtrl`. -/
theorem cfgWrCtrlWritesEnAlwaysAndModeWhileUnlocked :
    Obligations.CfgWrCtrlWritesEnAlwaysAndModeWhileUnlocked :=
  ⟨fun v => decodeOfEncodeIsTheOperation (.cfgWrCtrl v) rfl, fun v s =>
    ⟨(s.driveRead 0#3).setBlock (s.block.writeCtrl v), rfl, s.block.writeCtrl_eq v, s.driveRead_pins 0#3,
      s.sameBench_driveRead_setBlock _ _, s.sameStreams_driveRead_setBlock _ _⟩⟩

/-- Settles O6: the state after is a read of RATE and `Block.writeRate`. -/
theorem cfgWrRateWritesRateWhileUnlocked : Obligations.CfgWrRateWritesRateWhileUnlocked :=
  ⟨fun v => decodeOfEncodeIsTheOperation (.cfgWrRate v) rfl, fun v s =>
    ⟨(s.driveRead 1#3).setBlock (s.block.writeRate v), rfl, s.block.writeRate_eq v,
      Block.writeRate_sps_toNat v, s.driveRead_pins 1#3,
      s.sameBench_driveRead_setBlock _ _, s.sameStreams_driveRead_setBlock _ _⟩⟩

/-- Settles O7: the state after is a read of PERIOD and `Block.writePeriod`. -/
theorem cfgWrPeriodWritesPeriodWhileUnlocked : Obligations.CfgWrPeriodWritesPeriodWhileUnlocked :=
  ⟨fun v => decodeOfEncodeIsTheOperation (.cfgWrPeriod v) rfl, fun v s =>
    ⟨(s.driveRead 2#3).setBlock (s.block.writePeriod v), rfl, s.block.writePeriod_eq v,
      Block.writePeriod_sps_toNat v, s.driveRead_pins 2#3,
      s.sameBench_driveRead_setBlock _ _, s.sameStreams_driveRead_setBlock _ _⟩⟩

/-! ### Read-only and unmapped addresses, and who clears `held` (R104 to R107) -/

theorem Block.writeRate_held (v : Word) (b : Block) : (b.writeRate v).held = b.held := by
  unfold Block.writeRate
  split <;> rfl

theorem Block.writePeriod_held (v : Word) (b : Block) : (b.writePeriod v).held = b.held := by
  unfold Block.writePeriod
  split <;> rfl

/-- `Hold` never clears `held`. -/
theorem Block.hold_held_of_held {b : Block} (hheld : b.held = true) (u : Byte) (l : SymIdx) :
    (b.hold u l).held = true := by
  unfold Block.hold
  split
  · exact hheld
  · rfl

/-- Every operation but EMIT_UNIT_END and RESET keeps a held unit. -/
theorem exec_held_of_held {i : Instr} {s t : State} (hexec : exec i s = .next t)
    (hunitEnd : i ≠ .emitUnitEnd) (hreset : i ≠ .reset) (hheld : s.block.held = true) :
    t.block.held = true := by
  cases i with
  | emitUnitEnd => exact absurd rfl hunitEnd
  | reset => exact absurd rfl hreset
  | cfgWrRate v =>
    obtain rfl := Host.Outcome.next.inj hexec
    exact (s.block.writeRate_held v).trans hheld
  | cfgWrPeriod v =>
    obtain rfl := Host.Outcome.next.inj hexec
    exact (s.block.writePeriod_held v).trans hheld
  | unitBin | unitTxtOne | unitTxtZero =>
    obtain rfl := Host.Outcome.next.inj hexec
    exact Block.hold_held_of_held hheld _ _
  | cfgRd | cfgWrCtrl | cfgWrSpsLo | cfgWrSpsHi | cfgWrStatus | cfgWrUnmapped | inNone | unitTxtSkip
  | mapOne | mapZero | outIdle | outStall | emitRepeat | emitSymbolEnd =>
    obtain rfl := Host.Outcome.next.inj hexec
    exact hheld

/-- A write of address 6 or 7 drives 0 and changes nothing else. -/
theorem exec_cfgWrUnmapped (lsb : BitVec 1) (v : Word) (s : State) :
    exec (.cfgWrUnmapped lsb v) s = .next { s with pins := { s.pins with cfgRdata := 0#32 } } := by
  rw [← cfgView_unmapped lsb s.block]
  rfl

/-- Settles O8: the four operations are reads of their address, and every operation but two keeps `held`. -/
theorem writesOfReadOnlyAndUnmappedAddressesAreIgnored :
    Obligations.WritesOfReadOnlyAndUnmappedAddressesAreIgnored := by
  refine ⟨fun v => ?_, fun v s => ⟨rfl, rfl, rfl, fun lsb => exec_cfgWrUnmapped lsb v s⟩, ?_⟩
  · exact ⟨decodeOfEncodeIsTheOperation (.cfgWrSpsLo v) rfl, decodeOfEncodeIsTheOperation (.cfgWrSpsHi v) rfl,
      decodeOfEncodeIsTheOperation (.cfgWrStatus v) rfl, congrArg Except.ok (decodeC_unmapped 0#1 v),
      congrArg Except.ok (decodeC_unmapped 1#1 v)⟩
  · intro i s t hexec hs ht
    by_contra! hne
    obtain ⟨hunitEnd, hreset⟩ := hne
    simp [exec_held_of_held hexec hunitEnd hreset hs] at ht

/-! ### The frame of the configuration side (R108) -/

/-- Every format C word is formed by some cycle's ports. -/
theorem exists_formC_eq (w : BitVec 36) : ∃ p, formC p = w :=
  ⟨{ undriven false with cfgWe := w[35], cfgAddr := w.extractLsb' 32 3, cfgWdata := w.extractLsb' 0 32 },
    wordC_eq_fields w⟩

/-- Settles O9: a format C word reads an address and writes what `configured` writes, which is no datapath. -/
theorem configurationOperationsLeaveTheDatapathAlone :
    Obligations.ConfigurationOperationsLeaveTheDatapathAlone := by
  intro w s t hexec
  obtain ⟨p, rfl⟩ := exists_formC_eq w
  rw [exec_config] at hexec
  obtain rfl := Host.Outcome.next.inj hexec
  exact ⟨configured_datapath s.block p, s.sameBench_driveRead_setBlock _ _,
    s.sameStreams_driveRead_setBlock _ _, rfl⟩

/-! ### Noninterference of the two sides (R108, R172) -/

/-- The configuration side reads no stream port. -/
theorem Block.nextConfig_congr (b : Block) {p q : PortIn} (hwe : p.cfgWe = q.cfgWe)
    (haddr : p.cfgAddr = q.cfgAddr) (hwdata : p.cfgWdata = q.cfgWdata) :
    b.nextConfig p = b.nextConfig q := by
  simp only [Block.nextConfig, hwe, haddr, hwdata]

/-- Of the configuration the hold write reads SPS alone. -/
theorem Block.SameDatapath.hold {b c : Block} (h : b.SameDatapath c) (hsps : b.sps = c.sps) (u : Byte)
    (l : SymIdx) : (b.hold u l).SameDatapath (c.hold u l) := by
  by_cases hz : c.sps = 0#45
  · rwa [b.hold_of_sps_zero u l (hsps.trans hz), c.hold_of_sps_zero u l hz]
  · rw [b.hold_of_sps_ne_zero u l (hsps ▸ hz), c.hold_of_sps_ne_zero u l hz]
    exact ⟨rfl, rfl, rfl, rfl, rfl⟩

theorem Block.SameDatapath.holdUnit {b c : Block} (h : b.SameDatapath c) (hsps : b.sps = c.sps) (m : Mode)
    (d : Byte) : (holdUnit m d b).SameDatapath (holdUnit m d c) := by
  unfold Machine.holdUnit
  split
  · exact h.hold hsps _ _
  split
  · exact h.hold hsps _ _
  split
  · exact h.hold hsps _ _
  · exact h

/-- Without reset the datapath after an edge reads no configuration port: every guard is on the block before
the edge, and a unit transfers in only under the lock that keeps SPS. -/
theorem Block.next_sameDatapath (b : Block) {p q : PortIn} (hp : p.rst = false) (hq : q.rst = false)
    (hvalid : p.inValid = q.inValid) (hdata : p.inData = q.inData) (hready : p.outReady = q.outReady) :
    (b.next p).SameDatapath (b.next q) := by
  have hconfig : (b.nextConfig p).SameDatapath (b.nextConfig q) := ⟨rfl, rfl, rfl, rfl, rfl⟩
  cases hheld : b.held
  case true =>
    cases hr : q.outReady
    · rwa [Block.next_of_stall hp hheld (hready.trans hr), Block.next_of_stall hq hheld hr]
    · rw [Block.next_of_emit hp hheld (hready.trans hr), Block.next_of_emit hq hheld hr]
      split_ifs
      all_goals exact ⟨rfl, rfl, rfl, rfl, rfl⟩
  case false =>
    cases hfire : q.inValid && b.en
    · rwa [Block.next_of_no_transfer hp hheld (hvalid ▸ hfire), Block.next_of_no_transfer hq hheld hfire]
    · obtain ⟨hv, hen⟩ := Bool.and_eq_true_iff.mp hfire
      have hsps := (b.nextConfig_sps_of_en p hen).trans (b.nextConfig_sps_of_en q hen).symm
      rw [Block.next_of_accept hp hheld (hvalid.trans hv) hen, Block.next_of_accept hq hheld hv hen, hdata]
      exact hconfig.holdUnit hsps _ _

/-- Settles O10: the datapath half is `Block.next_sameDatapath`, and in the other half both cycles end in the
configuration registers of one `Block.nextConfig`. -/
theorem configurationAndStreamSidesDoNotInterfere :
    Obligations.ConfigurationAndStreamSidesDoNotInterfere := by
  intro s s' t t' hblock hrst hrst' hstep hstep'
  constructor
  · intro hvalid hdata hready
    rw [eq_next_of_step hstep, eq_next_of_step hstep', State.next_block, State.next_block, ← hblock]
    exact s.block.next_sameDatapath hrst hrst' hvalid hdata hready
  · intro hwe haddr hwdata
    have hc := (edge_of_step hstep).sameConfig hrst
    have hc' := (edge_of_step hstep').sameConfig hrst'
    rw [← hblock, ← s.block.nextConfig_congr hwe haddr hwdata] at hc'
    exact ⟨hc'.en.trans hc.en.symm, hc'.mode.trans hc.mode.symm, hc'.rate.trans hc.rate.symm,
      hc'.period.trans hc.period.symm⟩

end Sys2Proof.Machine

/-! PROOFS. The family of 41_symbol_extraction.md: what each input operation writes and records, which one a
cycle's ports select, and the symbols of the unit a transfer leaves held. -/

namespace Sys2Proof.Machine

/-! ### Accept, then a write of the block: the shape of every accepting operation (R111 to R115) -/

theorem State.sameBench_accept_setBlock (s : State) (m : Mode) (d : Byte) (b : Block) :
    s.SameBench ((s.accept m d).setBlock b) := ⟨rfl, rfl, rfl, rfl⟩

/-- The hold write, with SPS compared over the integers (R111). -/
theorem Block.hold_eq (u : Byte) (l : SymIdx) (b : Block) :
    b.hold u l = if b.sps.toNat = 0 then b
      else { b with held := true, unit := u, bidx := 0#3, lastidx := l, cnt := 0#45 } := by
  simp only [Block.hold, BitVec.toNat_eq, BitVec.toNat_zero]

/-- Settles O12: the state after is an acceptance in BINARY and `Block.hold` of the byte. -/
theorem unitBinHoldsTheByte : Obligations.UnitBinHoldsTheByte :=
  ⟨fun d => decodeOfEncodeIsTheOperation (.unitBin d) rfl, fun d s =>
    ⟨(s.accept .binary d).setBlock (s.block.hold d 7#3), rfl, s.block.hold_eq d 7#3, s.accept_accepted .binary d,
      rfl, rfl, s.sameBench_accept_setBlock _ _ _⟩⟩

/-- Settles O13: the states after are acceptances in TEXT and `Block.hold` of one symbol. -/
theorem textSymbolCharactersHoldOneSymbol : Obligations.TextSymbolCharactersHoldOneSymbol :=
  ⟨decodeOfEncodeIsTheOperation .unitTxtOne rfl, decodeOfEncodeIsTheOperation .unitTxtZero rfl, fun s =>
    ⟨⟨(s.accept .text Config.charOne).setBlock (s.block.hold 1#8 0#3), rfl, s.block.hold_eq 1#8 0#3,
        s.accept_accepted .text Config.charOne, rfl, rfl, s.sameBench_accept_setBlock _ _ _⟩,
      ⟨(s.accept .text Config.charZero).setBlock (s.block.hold 0#8 0#3), rfl, s.block.hold_eq 0#8 0#3,
        s.accept_accepted .text Config.charZero, rfl, rfl, s.sameBench_accept_setBlock _ _ _⟩⟩⟩

/-! ### Which input operation a cycle selects (R110) -/

theorem decodeU_of_not_fire {w : BitVec 10} (hfire : w[9] = false) : decodeU w = .inNone := by
  simp [decodeU, hfire]

theorem wordU_noFire (x : BitVec 9) : (0#1 ++ x : BitVec 10)[9] = false := by
  rw [BitVec.getElem_append, dif_neg (by decide)]
  rfl

/-- A transfer needs an offer, EN = 1 and no unit held (R41). -/
theorem formU_not_fire {b : Block} {p : PortIn} (h : p.inValid = false ∨ b.en = false ∨ b.held = true) :
    (formU b p)[9] = false := by
  rw [formU_fire, inReady]
  obtain h | h | h := h <;> simp [h]

/-- Settles O14: FIRE = 0 decodes to IN_NONE whatever else the word holds, and a skipped byte is recorded and
nothing more. -/
theorem skippedBytesAndNoTransferWriteNoBlockState :
    Obligations.SkippedBytesAndNoTransferWriteNoBlockState := by
  refine ⟨fun d h1 h0 => ?_, fun x => ?_, fun b p h => ?_, fun s => ⟨rfl, fun d => ?_⟩⟩
  · have hwf : (Instr.unitTxtSkip d).wellFormed = true := by
      simp [Instr.wellFormed, Config.charOne, Config.charZero, h1, h0]
    exact decodeOfEncodeIsTheOperation (.unitTxtSkip d) hwf
  · exact congrArg Except.ok (decodeU_of_not_fire (wordU_noFire x))
  · exact congrArg Except.ok (decodeU_of_not_fire (formU_not_fire h))
  · exact ⟨s.accept .text d, rfl, rfl, s.accept_accepted .text d, rfl, rfl,
      s.sameBench_accept_setBlock .text d s.block⟩

theorem Mode.bit_eq_false_iff (m : Mode) : m.bit = false ↔ m = .binary := by cases m <;> decide

/-- Settles O15: the decoder's guards, read on the fields of the word a cycle forms. -/
theorem inputSideDispatchesOnFireModeAndData : Obligations.InputSideDispatchesOnFireModeAndData := by
  intro b p hrst
  have hready : inReady b p = (b.en && !b.held) := by simp [inReady, hrst]
  simp only [decode, decodeU, formU_fire, formU_mode, formU_data, hready, Mode.bit_eq_false_iff,
    Config.charOne, Config.charZero]

/-! ### The symbols of the unit held (R118) -/

/-- What an input transfer says of its cycle: no reset, no unit held, and an offer while EN = 1. -/
theorem State.inFires_iff (s : State) : s.inFires = true ↔ s.present.rst = false ∧ s.block.held = false
    ∧ s.present.inValid = true ∧ s.block.en = true := by
  simp only [State.inFires, inReady, Bool.and_eq_true, Bool.not_eq_true']
  tauto

/-- Above an SPS of 0 `Hold` starts at the first sample of bit 0, and its symbols are bits 0 to `l`. -/
theorem Block.hold_symbols {b : Block} (hsps : b.sps ≠ 0#45) (u : Byte) (l : SymIdx) :
    (b.hold u l).bidx = 0#3 ∧ (b.hold u l).cnt = 0#45
      ∧ (List.range ((b.hold u l).lastidx.toNat + 1)).map (b.hold u l).unit.getLsbD
        = (List.range (l.toNat + 1)).map u.getLsbD := by
  rw [b.hold_of_sps_ne_zero u l hsps]
  exact ⟨rfl, rfl, rfl⟩

/-- The bits a unit with symbols is held as are its symbols, in order (R117). -/
theorem holdUnit_symbols {m : Mode} {d : Byte} {b : Block} (hsps : b.sps ≠ 0#45) (hsyms : syms m d ≠ []) :
    (holdUnit m d b).bidx = 0#3 ∧ (holdUnit m d b).cnt = 0#45
      ∧ (List.range ((holdUnit m d b).lastidx.toNat + 1)).map (holdUnit m d b).unit.getLsbD = syms m d := by
  cases m with
  | binary => exact Block.hold_symbols hsps d 7#3
  | text =>
    by_cases h1 : d = Config.charOne
    · subst h1
      have hbits : (List.range ((0#3).toNat + 1)).map (1#8).getLsbD = syms .text Config.charOne := by decide
      exact hbits ▸ Block.hold_symbols hsps 1#8 0#3
    by_cases h0 : d = Config.charZero
    · subst h0
      have hbits : (List.range ((0#3).toNat + 1)).map (0#8).getLsbD = syms .text Config.charZero := by decide
      exact hbits ▸ Block.hold_symbols hsps 0#8 0#3
    · exact absurd (by simp [syms, h1, h0]) hsyms

/-- Settles O16: an input transfer ends in `holdUnit`, on a configured block whose SPS the lock keeps. -/
theorem theHeldUnitAgreesWithTheSymbolFunction : Obligations.TheHeldUnitAgreesWithTheSymbolFunction := by
  intro s t hstep hfire
  obtain ⟨hrst, hheld, hvalid, hen⟩ := s.inFires_iff.mp hfire
  have hsps := Block.nextConfig_sps_of_en s.present hen
  have hiff := holdUnit_held_iff (b := s.block.nextConfig s.present) hheld s.block.mode s.present.inData
  rw [hsps] at hiff
  have hzero : s.block.sps.toNat = 0 ↔ s.block.sps = 0#45 := by simp [BitVec.toNat_eq]
  rw [eq_next_of_step hstep, State.next_block, Block.next_of_accept hrst hheld hvalid hen, ne_eq, hzero]
  constructor
  · intro hne hsyms
    exact ⟨hiff.mpr ⟨hne, hsyms⟩, holdUnit_symbols (hsps ▸ hne) hsyms⟩
  · intro hnone
    rw [← Bool.not_eq_true, hiff]
    tauto

end Sys2Proof.Machine

/-! PROOFS. The family of 42_iq_mapping.md: the two entries of the LUT, the operations that drive them, and
the pairs a run can transfer. -/

namespace Sys2Proof.Machine

/-! ### The operations (R131, R132) -/

/-- Settles O17: the LUT's entries are `lut_eq`, their packing is computed, and each operation is one drive
of the pair ports. -/
theorem lutOperationsDriveTheTwoEntries : Obligations.LutOperationsDriveTheTwoEntries :=
  ⟨decodeOfEncodeIsTheOperation .mapOne rfl, decodeOfEncodeIsTheOperation .mapZero rfl,
    lut_eq true, lut_eq false, by decide, by decide, fun _ => ⟨rfl, rfl⟩⟩

/-! ### The pairs a cycle transfers (R134, R76) -/

/-- Either entry has a silent Q, and an I of 127 or 0 (R130). -/
theorem lut_q_silent_and_i_on_or_off (x : Bool) :
    (lut x).q = 0#8 ∧ ((lut x).i = 127#8 ∨ (lut x).i = 0#8) := by
  rw [lut_eq]
  cases x
  · exact ⟨rfl, .inr rfl⟩
  · exact ⟨rfl, .inl rfl⟩

/-- The only pair a cycle can transfer is the LUT's entry for the current symbol. -/
theorem State.eq_lut_of_mem_takenNow {s : State} {x : Pair} (h : x ∈ s.takenNow) :
    x = lut s.block.sym := by
  unfold State.takenNow at h
  split at h
  · exact List.mem_singleton.mp h
  · exact absurd h List.not_mem_nil

/-- Settles O18: a pair recorded after a step was recorded before it, or is the LUT's entry of the cycle. -/
theorem everyTransferredPairIsALutEntry : Obligations.EveryTransferredPairIsALutEntry := by
  intro s t hbefore hstep x hx
  rw [eq_next_of_step hstep, State.next_taken, List.mem_append] at hx
  obtain hold | hnow := hx
  · exact hbefore x hold
  · rw [State.eq_lut_of_mem_takenNow hnow]
    exact lut_q_silent_and_i_on_or_off s.block.sym

end Sys2Proof.Machine

/-! PROOFS. The family of 43_sample_replication.md: the output operations and their dispatch, the laws of the
stream function, and the pairs a held unit still owes. Every cycle without reset moves pairs from those owed to
those taken, which conformance over any run and the release of a held unit rest on. -/

namespace Sys2Proof.Machine

/-! ### The output operations (R152 to R156) -/

/-- The pair of the current symbol, written out (R34, R130). -/
theorem Block.lut_sym (b : Block) :
    lut b.sym = { i := if b.unit.getLsbD b.bidx.toNat then 127#8 else 0#8, q := 0#8 } := lut_eq b.sym

/-- Settles O20: the decoder's first two guards; neither operation does more than drive the output ports. -/
theorem idleAndStalledOutputsWriteNoState : Obligations.IdleAndStalledOutputsWriteNoState := by
  have hidle : ∀ x : BitVec 3, decodeE (0#1 ++ x) = .outIdle := by decide
  have hstall : ∀ x : BitVec 2, decodeE (0b10#2 ++ x) = .outStall := by decide
  refine ⟨fun x => congrArg Except.ok (hidle x), fun x => congrArg Except.ok (hstall x), fun s => ⟨rfl, ?_⟩⟩
  rw [← s.block.lut_sym]
  rfl

theorem State.sameBench_emit_setBlock (s : State) (b : Block) : s.SameBench (s.emit.setBlock b) :=
  ⟨rfl, rfl, rfl, rfl⟩

/-- Settles O21: the state after is `State.emit` with `Block.nextSample`. -/
theorem emitRepeatTransfersAPairAndCounts : Obligations.EmitRepeatTransfersAPairAndCounts := by
  have hdecode : ∀ x : BitVec 1, decodeE (0b110#3 ++ x) = .emitRepeat := by decide
  exact ⟨fun x => congrArg Except.ok (hdecode x), fun s => ⟨s.emit.setBlock s.block.nextSample, rfl, rfl,
    s.block.lut_sym, s.emit_taken, rfl, rfl, rfl, rfl, s.sameBench_emit_setBlock _⟩⟩

/-- Settles O22: the state after is `State.emit` with `Block.nextSymbol`. -/
theorem emitSymbolEndTransfersAPairAndAdvances : Obligations.EmitSymbolEndTransfersAPairAndAdvances :=
  ⟨decodeOfEncodeIsTheOperation .emitSymbolEnd rfl, fun s => ⟨s.emit.setBlock s.block.nextSymbol, rfl, rfl,
    s.block.lut_sym, s.emit_taken, rfl, rfl, rfl, rfl, s.sameBench_emit_setBlock _⟩⟩

/-- A released block is locked by EN alone (R25). -/
theorem Block.release_locked (b : Block) : b.release.locked = b.en := Bool.or_false b.en

/-- Settles O23: the state after is `State.emit` with `Block.release`. -/
theorem emitUnitEndTransfersAPairAndReleases : Obligations.EmitUnitEndTransfersAPairAndReleases :=
  ⟨decodeOfEncodeIsTheOperation .emitUnitEnd rfl, fun s => ⟨s.emit.setBlock s.block.release, rfl, rfl, rfl,
    s.block.release_locked.trans, s.block.lut_sym, s.emit_taken, rfl, rfl, rfl, rfl,
    s.sameBench_emit_setBlock _⟩⟩

/-! ### The output-side dispatch (R151) -/

/-- SLAST over the integers, where SPS - 1 may be -1 (R74). -/
theorem Block.slast_eq_false_iff (b : Block) :
    b.slast = false ↔ (b.cnt.toNat : Int) ≠ (b.sps.toNat : Int) - 1 := by
  rw [Block.slast, beq_eq_false_iff_ne]
  omega

theorem Block.ulast_eq_false_iff (b : Block) : b.ulast = false ↔ b.bidx ≠ b.lastidx := beq_eq_false_iff_ne

/-- The operation of the output side, by the guards of R151. -/
theorem decodeE_formE (b : Block) (p : PortIn) : decodeE (formE b p) =
    if b.held = false then .outIdle
    else if p.outReady = false then .outStall
    else if (b.cnt.toNat : Int) ≠ (b.sps.toNat : Int) - 1 then .emitRepeat
    else if b.bidx ≠ b.lastidx then .emitSymbolEnd
    else .emitUnitEnd := by
  simp only [decodeE, formE_held, formE_ready, formE_slast, formE_ulast, ← Block.slast_eq_false_iff,
    ← Block.ulast_eq_false_iff]
  cases b.held <;> simp

/-- The output side writes no configuration register, and nothing of the block where HELD = 0. -/
theorem exec_decodeE_frame {w : BitVec 4} {s t : State} (hexec : exec (decodeE w) s = .next t) :
    s.block.SameConfig t.block ∧ (w[3] = false → t.block = s.block) := by
  unfold decodeE at hexec
  split at hexec
  case isTrue =>
    cases hexec
    exact ⟨⟨rfl, rfl, rfl, rfl⟩, fun _ => rfl⟩
  case isFalse hheld =>
    refine ⟨?_, fun h => absurd h hheld⟩
    repeat' split at hexec
    all_goals
      cases hexec
      exact ⟨rfl, rfl, rfl, rfl⟩

/-- Settles O24: the dispatch is `decodeE_formE`, the frame `exec_decodeE_frame`. -/
theorem outputSideDispatchesOnHeldReadyAndLast : Obligations.OutputSideDispatchesOnHeldReadyAndLast := by
  refine ⟨fun b p hrst => ⟨by simp [outValid, hrst], congrArg Except.ok (decodeE_formE b p)⟩, ?_⟩
  intro w s t hexec
  rw [BitVec.getLsbD_eq_getElem (by decide)]
  exact exec_decodeE_frame hexec

/-! ### The counters across an edge (R161) -/

theorem Block.Inv.cnt_lt {b : Block} (h : b.Inv) (hheld : b.held = true) : b.cnt.toNat < b.sps.toNat := by
  obtain ⟨-, hcnt, -⟩ := h.counts hheld
  exact hcnt

theorem Block.Inv.bidx_le {b : Block} (h : b.Inv) (hheld : b.held = true) : b.bidx ≤ b.lastidx := by
  obtain ⟨-, -, hbidx⟩ := h.counts hheld
  exact hbidx

/-- Settles O25: of the four edges of a held unit one leaves the counters, one counts below SPS, one moves to
a symbol of the unit, and the last releases it. -/
theorem noCounterWrapsWhileAUnitIsHeld : Obligations.NoCounterWrapsWhileAUnitIsHeld := by
  intro s t hinv hheld hrst hstep
  have hcnt := hinv.cnt_lt hheld
  have hbidx := hinv.bidx_le hheld
  refine ⟨hcnt, s.block.sps_toNat.trans_le s.block.spsNat_le, fun htheld => ?_⟩
  have he := edge_of_step hstep
  generalize t.block = c at he htheld ⊢
  cases he with
  | reset h => simp [hrst] at h
  | stall => exact .inl ⟨rfl, rfl⟩
  | repeatSample _ _ _ hslast =>
    have hne := s.block.slast_eq_false_iff.mp hslast
    have hroom : s.block.cnt.toNat + 1 < s.block.sps.toNat := by bv_omega
    refine .inr (.inl ⟨?_, hroom, rfl⟩)
    exact BitVec.toNat_add_of_lt (hroom.trans s.block.sps.isLt)
  | symbolEnd _ _ _ _ hulast =>
    have hne := s.block.ulast_eq_false_iff.mp hulast
    have hroom : s.block.bidx.toNat + 1 ≤ s.block.lastidx.toNat := by bv_omega
    refine .inr (.inr ⟨rfl, ?_, hroom⟩)
    exact BitVec.toNat_add_of_lt (hroom.trans_lt s.block.lastidx.isLt)
  | unitEnd => cases htheld
  | noTransfer _ h => simp [hheld] at h
  | accept _ h => simp [hheld] at h

/-! ### The stream function (R157, R158, R160) -/

/-- Each symbol's pair `n` times over: the body of `expand` and of `Block.due`. -/
def replicated (n : Nat) (xs : List Bool) : List Pair := xs.flatMap fun x => List.replicate n (lut x)

theorem expand_eq_replicated (m : Mode) (s : Sps) (d : Byte) :
    expand m s d = replicated s.toNat (syms m d) := rfl

@[simp] theorem replicated_nil (n : Nat) : replicated n [] = [] := rfl

@[simp] theorem replicated_cons (n : Nat) (x : Bool) (xs : List Bool) :
    replicated n (x :: xs) = List.replicate n (lut x) ++ replicated n xs := rfl

@[simp] theorem replicated_zero (xs : List Bool) : replicated 0 xs = [] := by simp [replicated]

@[simp] theorem replicated_length (n : Nat) (xs : List Bool) : (replicated n xs).length = n * xs.length := by
  simp [replicated, List.length_flatMap, Nat.mul_comm]

theorem byteStream_cons (x : Pair) (xs : List Pair) : byteStream (x :: xs) = x.i :: x.q :: byteStream xs := rfl

/-- A pair is two bytes (R53). -/
theorem byteStream_length (xs : List Pair) : (byteStream xs).length = 2 * xs.length := by
  induction xs with
  | nil => rfl
  | cons x xs ih =>
    rw [byteStream_cons, List.length_cons, List.length_cons, List.length_cons, ih]
    omega

theorem syms_text_of_other {d : Byte} (h1 : d ≠ 0x31#8) (h0 : d ≠ 0x30#8) : syms .text d = [] := by
  simp [syms, Config.charOne, Config.charZero, h1, h0]

/-- Settles O43: the length of `replicated`, at the number of symbols of each kind of unit. -/
theorem theExpansionOfAUnitHasSpsPairsPerSymbol : Obligations.TheExpansionOfAUnitHasSpsPairsPerSymbol := by
  refine ⟨byteStream_cons, fun m s d => ?_⟩
  have hlength (m : Mode) (d : Byte) : (expand m s d).length = s.toNat * (syms m d).length :=
    replicated_length _ _
  refine ⟨hlength m d, (hlength .binary d).trans (Nat.mul_comm _ 8),
    (hlength .text 0x31#8).trans (Nat.mul_one _), (hlength .text 0x30#8).trans (Nat.mul_one _),
    fun h1 h0 => ?_, byteStream_length _⟩
  rw [hlength, syms_text_of_other h1 h0]
  rfl

theorem streamOut_append (us vs : List Accepted) : streamOut (us ++ vs) = streamOut us ++ streamOut vs :=
  List.flatMap_append

@[simp] theorem streamOut_nil : streamOut [] = [] := rfl

theorem streamOut_singleton (u : Accepted) : streamOut [u] = expand u.mode u.sps u.data := by simp [streamOut]

/-- A repeated input gives its output as often (R160). -/
theorem streamOut_flatten_replicate (n : Nat) (us : List Accepted) :
    streamOut (List.replicate n us).flatten = (List.replicate n (streamOut us)).flatten := by
  induction n with
  | zero => rfl
  | succ n ih => rw [List.replicate_succ, List.flatten_cons, streamOut_append, ih, List.replicate_succ,
      List.flatten_cons]

/-- Settles O44: `l` copies of a pass begin with `k` of them. -/
theorem theStreamFunctionConcatenates : Obligations.TheStreamFunctionConcatenates := by
  refine ⟨streamOut_append, fun us l k hk => ?_⟩
  obtain ⟨j, rfl⟩ := Nat.exists_eq_add_of_le hk
  rw [streamOut_flatten_replicate, List.replicate_add, List.flatten_append]
  exact List.take_left' (by simp [Nat.mul_comm])

/-! ### The pairs a held unit owes -/

theorem Block.due_of_idle {b : Block} (hheld : b.held = false) : b.due = [] := by simp [Block.due, hheld]

theorem Block.due_of_held {b : Block} (hheld : b.held = true) :
    b.due = List.replicate (b.sps.toNat - b.cnt.toNat) (lut b.sym) ++ replicated b.sps.toNat b.laterSyms := by
  simp [Block.due, hheld, replicated]

/-- Below SPS the current symbol still owes a pair, so a held unit is one that owes something. -/
theorem Block.Inv.held_iff_due_length_pos {b : Block} (h : b.Inv) : b.held = true ↔ 0 < b.due.length := by
  cases hheld : b.held
  · simp [Block.due_of_idle hheld]
  · have hcnt := h.cnt_lt hheld
    simp [Block.due_of_held hheld]
    omega

/-- At the start of a symbol a unit owes SPS pairs of it and of each later one. -/
theorem Block.due_of_cnt_zero {b : Block} (hheld : b.held = true) (hcnt : b.cnt = 0#45) :
    b.due = replicated b.sps.toNat (b.sym :: b.laterSyms) := by
  simp [Block.due_of_held hheld, hcnt]

/-- The symbols from the current one on are the bits from `bidx` to `lastidx`. -/
theorem Block.sym_cons_laterSyms {b : Block} (hbidx : b.bidx ≤ b.lastidx) :
    b.sym :: b.laterSyms = ((List.range (b.lastidx.toNat + 1)).drop b.bidx.toNat).map b.unit.getLsbD := by
  have hlt : b.bidx.toNat < (List.range (b.lastidx.toNat + 1)).length := by
    rw [List.length_range]
    exact Nat.lt_succ_of_le hbidx
  rw [List.drop_eq_getElem_cons hlt, List.getElem_range, List.map_cons]
  rfl

/-- A held unit locks the block (R25). -/
theorem Block.nextConfig_of_held {b : Block} (p : PortIn) (hheld : b.held = true) :
    b.nextConfig p = { b with en := (b.nextConfig p).en } :=
  Block.nextConfig_of_locked p (by simp [Block.locked, hheld])

/-- A configuration write touches neither the datapath nor a held unit's SPS. -/
theorem Block.due_nextConfig (b : Block) (p : PortIn) : (b.nextConfig p).due = b.due := by
  cases hheld : b.held
  · rw [Block.due_of_idle hheld, Block.due_of_idle (b := b.nextConfig p) hheld]
  · rw [Block.nextConfig_of_held p hheld]
    rfl

theorem Block.slast_nextConfig {b : Block} (p : PortIn) (hheld : b.held = true) :
    (b.nextConfig p).slast = b.slast := by
  rw [Block.nextConfig_of_held p hheld]
  rfl

/-- EMIT_REPEAT takes the first pair due. -/
theorem Block.Inv.due_eq_cons_nextSample {b : Block} (h : b.Inv) (hheld : b.held = true) :
    b.due = lut b.sym :: b.nextSample.due := by
  have hcnt := h.cnt_lt hheld
  have hcount : (b.cnt + 1#45).toNat = b.cnt.toNat + 1 := by bv_omega
  have hleft : b.sps.toNat - b.cnt.toNat = b.sps.toNat - (b.cnt.toNat + 1) + 1 := by omega
  rw [Block.due_of_held hheld, Block.due_of_held (b := b.nextSample) hheld, Block.nextSample_cnt, hcount, hleft,
    List.replicate_succ, List.cons_append]
  rfl

/-- The last sample of a symbol leaves what the later symbols owe. -/
theorem Block.due_of_slast {b : Block} (hheld : b.held = true) (hslast : b.slast = true) :
    b.due = lut b.sym :: replicated b.sps.toNat b.laterSyms := by
  have hlast : b.cnt.toNat + 1 = b.sps.toNat := beq_iff_eq.mp hslast
  have hone : b.sps.toNat - b.cnt.toNat = 1 := by omega
  rw [Block.due_of_held hheld, hone]
  rfl

/-- EMIT_SYMBOL_END takes the first pair due, and the symbol after is the first of the later ones. -/
theorem Block.Inv.due_eq_cons_nextSymbol {b : Block} (h : b.Inv) (hheld : b.held = true)
    (hslast : b.slast = true) (hulast : b.ulast = false) : b.due = lut b.sym :: b.nextSymbol.due := by
  have hbidx := h.bidx_le hheld
  have hne := b.ulast_eq_false_iff.mp hulast
  have hindex : (b.bidx + 1#3).toNat = b.bidx.toNat + 1 := by bv_omega
  have hlater : b.laterSyms = b.nextSymbol.sym :: b.nextSymbol.laterSyms := by
    rw [Block.sym_cons_laterSyms ((h.nextSymbol hheld hulast).bidx_le hheld), Block.nextSymbol_bidx, hindex]
    rfl
  rw [Block.due_of_slast hheld hslast, hlater, Block.due_of_cnt_zero (b := b.nextSymbol) hheld rfl,
    Block.nextSymbol_sps]

/-- EMIT_UNIT_END takes the only pair due. -/
theorem Block.due_eq_cons_release {b : Block} (hheld : b.held = true) (hslast : b.slast = true)
    (hulast : b.ulast = true) : b.due = lut b.sym :: b.release.due := by
  have hlast : b.bidx = b.lastidx := beq_iff_eq.mp hulast
  have hlater : b.laterSyms = [] := by simp [Block.laterSyms, hlast]
  rw [Block.due_of_slast hheld hslast, hlater, Block.due_of_idle b.release_held, replicated_nil]

/-- A unit just held owes SPS pairs of each of its symbols, bits 0 to `lastidx`. -/
theorem Block.due_of_start {b : Block} (hheld : b.held = true) (hbidx : b.bidx = 0#3) (hcnt : b.cnt = 0#45) :
    b.due = replicated b.sps.toNat ((List.range (b.lastidx.toNat + 1)).map b.unit.getLsbD) := by
  have hle : b.bidx ≤ b.lastidx := hbidx ▸ Nat.zero_le _
  rw [Block.due_of_cnt_zero hheld hcnt, Block.sym_cons_laterSyms hle, hbidx]
  rfl

theorem Block.due_length_of_start {b : Block} (hheld : b.held = true) (hbidx : b.bidx = 0#3)
    (hcnt : b.cnt = 0#45) : b.due.length = (b.lastidx.toNat + 1) * b.sps.toNat := by
  rw [Block.due_of_start hheld hbidx hcnt, replicated_length, List.length_map, List.length_range, Nat.mul_comm]

/-- What an accepted unit owes is its expansion, nothing where it is not held (R118). -/
theorem holdUnit_due {b : Block} (hheld : b.held = false) (m : Mode) (d : Byte) :
    (holdUnit m d b).due = expand m b.sps d := by
  have hiff := holdUnit_held_iff hheld m d
  have hsps : (holdUnit m d b).sps = b.sps := (holdUnit_sameConfig m d b).sps_eq
  rw [expand_eq_replicated]
  cases hafter : (holdUnit m d b).held
  · have hnone : b.sps = 0#45 ∨ syms m d = [] := by
      rw [hafter] at hiff
      tauto
    rw [Block.due_of_idle hafter]
    obtain h | h := hnone <;> simp [h]
  · obtain ⟨hne, hsyms⟩ := hiff.mp hafter
    obtain ⟨hbidx, hcnt, hbits⟩ := holdUnit_symbols hne hsyms
    rw [Block.due_of_start hafter hbidx hcnt, hsps, hbits]

/-! ### A cycle moves pairs from those due to those taken (R163) -/

section Transfers
variable {s : State}

/-- In a cycle of a held unit nothing is accepted, and the current pair is taken where the sink is ready. -/
theorem State.records_of_held (hrst : s.present.rst = false) (hheld : s.block.held = true) :
    s.acceptedNow = [] ∧ s.takenNow = if s.present.outReady then [lut s.block.sym] else [] := by
  obtain ⟨hin, hout⟩ := State.transfers_of_held hrst hheld
  simp [State.acceptedNow, State.takenNow, hin, hout]

theorem State.takenNow_of_idle (hheld : s.block.held = false) : s.takenNow = [] := by
  simp [State.takenNow, State.outFires, outValid, hheld]

/-- An output transfer that leaves a block owing all but the first pair due. The configuration write of its
cycle changes nothing due. -/
theorem State.takenNow_append_of_emit (hrst : s.present.rst = false) (hheld : s.block.held = true)
    (hready : s.present.outReady = true) {c : Block}
    (hc : (s.block.nextConfig s.present).due = lut s.block.sym :: c.due) :
    s.takenNow ++ c.due = s.block.due ++ streamOut s.acceptedNow := by
  obtain ⟨hin, hout⟩ := State.records_of_held hrst hheld
  rw [hin, hout, if_pos hready, ← s.block.due_nextConfig s.present, hc]
  exact (List.append_nil _).symm

/-- The pairs a cycle takes, followed by those due after it, are those due before it and the expansion of the
unit it accepts. -/
theorem State.takenNow_append_due_next (hinv : s.block.Inv) (hrst : s.present.rst = false) :
    s.takenNow ++ s.next.block.due = s.block.due ++ streamOut s.acceptedNow := by
  have hconfig := hinv.nextConfig s.present
  have he := s.block.edge_next s.present
  rw [State.next_block]
  generalize s.block.next s.present = c at he ⊢
  cases he with
  | reset h => simp [hrst] at h
  | stall _ hheld hready =>
    obtain ⟨hin, hout⟩ := State.records_of_held hrst hheld
    simp [hin, hout, hready, Block.due_nextConfig]
  | repeatSample _ hheld hready =>
    exact State.takenNow_append_of_emit hrst hheld hready (hconfig.due_eq_cons_nextSample hheld)
  | symbolEnd _ hheld hready hslast hulast =>
    have hslast' := (Block.slast_nextConfig s.present hheld).trans hslast
    exact State.takenNow_append_of_emit hrst hheld hready (hconfig.due_eq_cons_nextSymbol hheld hslast' hulast)
  | unitEnd _ hheld hready hslast hulast =>
    have hslast' := (Block.slast_nextConfig s.present hheld).trans hslast
    exact State.takenNow_append_of_emit hrst hheld hready (Block.due_eq_cons_release hheld hslast' hulast)
  | noTransfer _ hheld hfire =>
    have hin := (State.transfers_of_idle hrst hheld).1.trans hfire
    simp [State.takenNow_of_idle hheld, State.acceptedNow, hin, Block.due_nextConfig]
  | accept _ hheld hvalid hen =>
    have hin : s.inFires = true := s.inFires_iff.mpr ⟨hrst, hheld, hvalid, hen⟩
    rw [State.takenNow_of_idle hheld, State.acceptedNow, if_pos hin, streamOut_singleton,
      Block.due_of_idle hheld, holdUnit_due (b := s.block.nextConfig s.present) hheld,
      Block.nextConfig_sps_of_en s.present hen]

theorem State.Conforms.next (hconf : s.Conforms) (hinv : s.block.Inv) (hrst : s.present.rst = false) :
    s.next.Conforms := by
  have hconf : s.taken ++ s.block.due = streamOut s.accepted := hconf
  calc s.next.taken ++ s.next.block.due
      = s.taken ++ (s.takenNow ++ s.next.block.due) := List.append_assoc ..
    _ = (s.taken ++ s.block.due) ++ streamOut s.acceptedNow := by
      rw [State.takenNow_append_due_next hinv hrst, List.append_assoc]
    _ = streamOut s.next.accepted := by rw [hconf, State.next_accepted, streamOut_append]

theorem State.inv_next (hinv : s.block.Inv) : s.next.block.Inv := (s.block.edge_next s.present).inv hinv

end Transfers

/-- Settles O38: the step is `State.next`, which keeps the equation. -/
theorem everyStepWithoutResetKeepsConformance : Obligations.EveryStepWithoutResetKeepsConformance := by
  intro s t hinv hconf hrst hstep
  rw [eq_next_of_step hstep]
  exact hconf.next hinv hrst

/-- Settles O42: an edge that sets `held` needs SPS not 0, and with no unit held nothing is taken. -/
theorem whileSpsIsZeroNothingIsHeldOrTransferred : Obligations.WhileSpsIsZeroNothingIsHeldOrTransferred := by
  refine ⟨fun m d => replicated_zero (syms m d), fun s t hinv hsps hstep => ?_⟩
  have hidle : s.block.held = false := Bool.eq_false_iff.mpr fun h => (hinv.counts h).1 hsps
  constructor
  · refine Bool.eq_false_iff.mpr fun h => ?_
    obtain ⟨-, -, hne, -⟩ := (edge_of_step hstep).accept_of_held hidle h
    exact hne hsps
  · rw [eq_next_of_step hstep, State.next_taken, State.takenNow_of_idle hidle, List.append_nil]

/-! ### Runs -/

theorem run_succ_of_next {M : Host.Core} {s t : M.State} (k : Nat) (hstep : M.step s = .next t) :
    M.run (k + 1) s = M.run k t := by
  simp only [Host.Core.run, hstep]

/-- `k` cycles are `k` applications of the closed form. -/
theorem steps_eq_iterate (k : Nat) (s : State) : steps k s = .next (State.next^[k] s) := by
  induction k generalizing s with
  | zero => rfl
  | succ k ih =>
    rw [Function.iterate_succ_apply, ← ih]
    exact run_succ_of_next k (step_eq_next s)

/-- What every cycle keeps holds after any run. -/
theorem steps_induction {P : State → Prop} (hnext : ∀ s, P s → P s.next) {k : Nat} {s t : State} (hs : P s)
    (hrun : steps k s = .next t) : P t := by
  rw [steps_eq_iterate] at hrun
  obtain rfl := Host.Outcome.next.inj hrun
  exact Function.Iterate.rec P hs hnext k

/-! ### Environments without reset lines -/

/-- Whether a line drives `rst`. -/
def Line.resets : Line → Bool
  | .reset => true
  | .cycle p => p.rst
  | _ => false

theorem noReset_cons (l : Line) (ls : List Line) : noReset (l :: ls) = (!l.resets && noReset ls) := by
  cases l <;> rfl

theorem noReset_append (ls ls' : List Line) : noReset (ls ++ ls') = (noReset ls && noReset ls') := by
  induction ls with
  | nil => rfl
  | cons l ls ih => rw [List.cons_append, noReset_cons, noReset_cons, ih, Bool.and_assoc]

theorem Line.ports_rst (l : Line) (on : Bool) : (l.ports on).rst = l.resets := by cases l <;> rfl

theorem noReset_settleLines {ls : List Line} (h : noReset ls = true) : noReset (settleLines ls) = true := by
  fun_induction settleLines ls with
  | case1 => rfl
  | case2 on ls ih => exact ih h
  | case3 ls ih => exact ih h
  | case4 l ls => exact h

theorem Line.noReset_rest {l : Line} (h : l.resets = false) (b : Block) : noReset (l.rest b) = true := by
  cases l with
  | unit => simp only [Line.rest]; split <;> rfl
  | waitIdle => simp only [Line.rest]; split <;> rfl
  | reset | wr | rd | sink | idle | cycle => rfl

theorem noReset_scriptRest {ls : List Line} (h : noReset ls = true) (b : Block) :
    noReset (scriptRest b ls) = true := by
  cases ls with
  | nil => rfl
  | cons l ls =>
    rw [noReset_cons, Bool.and_eq_true, Bool.not_eq_true'] at h
    rw [scriptRest, noReset_append, l.noReset_rest h.1, h.2]
    rfl

/-- Neither the script nor the lines that start over after it drive `rst`. -/
structure State.NeverResets (s : State) : Prop where
  script : noReset s.script = true
  again : noReset s.again = true

theorem State.NeverResets.pending {s : State} (h : s.NeverResets) : noReset s.pending = true := by
  unfold State.pending
  split
  · exact noReset_settleLines h.again
  · next l ls hsettled => exact hsettled ▸ noReset_settleLines h.script

theorem State.NeverResets.present_rst {s : State} (h : s.NeverResets) : s.present.rst = false := by
  have hpending := h.pending
  unfold State.present
  cases hlines : s.pending with
  | nil => rfl
  | cons l ls =>
    rw [hlines, noReset_cons, Bool.and_eq_true, Bool.not_eq_true'] at hpending
    exact (l.ports_rst _).trans hpending.1

theorem State.NeverResets.next {s : State} (h : s.NeverResets) : s.next.NeverResets :=
  ⟨noReset_scriptRest h.pending _, h.again⟩

/-! ### Conformance of every run (R159, R163) -/

/-- What a run from reset without reset lines keeps. -/
structure State.Conforming (s : State) : Prop where
  inv : s.block.Inv
  conforms : s.Conforms
  neverResets : s.NeverResets

theorem State.Conforming.next {s : State} (h : s.Conforming) : s.next.Conforming :=
  ⟨State.inv_next h.inv, h.conforms.next h.inv h.neverResets.present_rst, h.neverResets.next⟩

/-- At reset nothing is accepted, taken or due. -/
theorem State.conforming_reset {ls as : List Line} (on : Bool) (hls : noReset ls = true)
    (has : noReset as = true) :
    { State.reset with script := ls, again := as, sinkOn := on : State }.Conforming :=
  ⟨Block.reset_inv, rfl, hls, has⟩

/-- Settles O39: conformance holds at the end of the run, and the pairs due are what is not taken yet. -/
theorem transferredPairsAreAPrefixOfTheStreamFunction :
    Obligations.TransferredPairsAreAPrefixOfTheStreamFunction := by
  intro ls as on k t hls has hrun
  have hend : t.Conforming :=
    steps_induction (P := State.Conforming) (fun _ h => h.next) (State.conforming_reset on hls has) hrun
  have hconf : t.taken ++ t.block.due = streamOut t.accepted := hend.conforms
  refine ⟨⟨t.block.due, hconf⟩, fun hidle => ?_⟩
  rw [← hconf, Block.due_of_idle hidle, List.append_nil]

/-- Settles O40: both finished runs took `Out` of the same units. -/
theorem finishedRunsWithTheSameUnitsTransferTheSamePairs :
    Obligations.FinishedRunsWithTheSameUnitsTransferTheSamePairs := by
  intro ls as ls' as' on on' k k' t t' hls has hls' has' hrun hrun' hunits hidle hidle'
  have htaken := (transferredPairsAreAPrefixOfTheStreamFunction ls as on k t hls has hrun).2 hidle
  have htaken' := (transferredPairsAreAPrefixOfTheStreamFunction ls' as' on' k' t' hls' has' hrun').2 hidle'
  rw [htaken, htaken', hunits]

/-! ### The release of a held unit (R164) -/

theorem readyCycles_cons (p : PortIn) (ps : List PortIn) :
    readyCycles (p :: ps) = p.outReady.toNat + readyCycles ps := by
  rw [readyCycles, List.countP_cons, Nat.add_comm]
  cases p.outReady <;> rfl

/-- While a unit is held a ready sink takes one of the pairs due, and nothing else changes their number. -/
theorem State.due_length_next {s : State} (hinv : s.block.Inv) (hrst : s.present.rst = false)
    (hdue : 0 < s.block.due.length) :
    s.present.outReady.toNat + s.next.block.due.length = s.block.due.length
      ∧ s.next.taken.length = s.taken.length + s.present.outReady.toNat := by
  obtain ⟨hin, hout⟩ := State.records_of_held hrst (hinv.held_iff_due_length_pos.mpr hdue)
  have htaken : s.takenNow.length = s.present.outReady.toNat := by
    rw [hout]
    cases s.present.outReady <;> rfl
  have hmoved := congrArg List.length (State.takenNow_append_due_next hinv hrst)
  rw [hin, List.length_append, List.length_append, htaken] at hmoved
  exact ⟨hmoved, by rw [State.next_taken, List.length_append, htaken]⟩

section Schedule
variable {s : State} {p : PortIn} {ls : List Line}

theorem State.present_of_cycle (hscript : s.script = .cycle p :: ls) : s.present = p :=
  State.present_of_pending (State.pending_of_settled hscript rfl)

theorem State.next_script_of_cycle (hscript : s.script = .cycle p :: ls) : s.next.script = ls := by
  rw [State.next_script, State.pending_of_settled hscript rfl]
  rfl

end Schedule

/-- A schedule with fewer ready cycles than pairs due takes one pair in each of them. -/
theorem State.iterate_next_of_schedule {s : State} {ps : List PortIn} {ls : List Line} (hinv : s.block.Inv)
    (hscript : s.script = ps.map Line.cycle ++ ls) (hrst : ∀ q ∈ ps, q.rst = false)
    (hdue : readyCycles ps < s.block.due.length) :
    (State.next^[ps.length] s).block.Inv ∧ (State.next^[ps.length] s).script = ls
      ∧ readyCycles ps + (State.next^[ps.length] s).block.due.length = s.block.due.length
      ∧ (State.next^[ps.length] s).taken.length = s.taken.length + readyCycles ps := by
  induction ps generalizing s with
  | nil => exact ⟨hinv, hscript, Nat.zero_add _, rfl⟩
  | cons p ps ih =>
    have hpresent : s.present = p := State.present_of_cycle hscript
    rw [readyCycles_cons] at hdue
    obtain ⟨hdue', htaken'⟩ := State.due_length_next hinv (hpresent ▸ hrst p List.mem_cons_self) (by omega)
    rw [hpresent] at hdue' htaken'
    obtain ⟨hinv', hscript', hduet, htakent⟩ := ih (State.inv_next hinv) (State.next_script_of_cycle hscript)
      (fun q hq => hrst q (List.mem_cons_of_mem _ hq)) (by omega)
    rw [List.length_cons, Function.iterate_succ_apply, readyCycles_cons]
    exact ⟨hinv', hscript', by omega, by omega⟩

/-- Settles O41: one pair is due after the schedule, so the unit is still held; the next ready cycle takes it,
so none is due and the unit is released. -/
theorem aHeldUnitIsReleasedAfterExactlyItsPairs : Obligations.AHeldUnitIsReleasedAfterExactlyItsPairs := by
  intro s ps p ls hinv hheld hbidx hcnt hscript hrst hprst hready hcycles
  have hlength := Block.due_length_of_start hheld hbidx hcnt
  obtain ⟨htinv, htscript, htdue, httaken⟩ := State.iterate_next_of_schedule hinv hscript hrst (by omega)
  generalize ht : State.next^[ps.length] s = t at htinv htscript htdue httaken
  have hpresent : t.present = p := State.present_of_cycle htscript
  obtain ⟨hudue, hutaken⟩ := State.due_length_next htinv (hpresent ▸ hprst) (by omega)
  rw [hpresent, hready, Bool.toNat_true] at hudue hutaken
  have htheld : t.block.held = true := htinv.held_iff_due_length_pos.mpr (by omega)
  have huheld : t.next.block.held = false := by
    rw [Bool.eq_false_iff, ne_eq, (State.inv_next htinv).held_iff_due_length_pos]
    omega
  refine ⟨t, t.next, ?_, htheld, ?_, huheld, by omega⟩
  · rw [steps_eq_iterate, ht]
  · rw [steps_eq_iterate, Function.iterate_succ_apply', ht]

end Sys2Proof.Machine

/-! PROOFS. The family of 60_exceptions.md: nothing stops, an idle block changes only when written, and the three
runs without end of R181. -/

namespace Sys2Proof.Machine

/-! ### Nothing stops (R170) -/

/-- Every operation's meaning is a next state. -/
theorem exec_eq_next (i : Instr) (s : State) : ∃ t, exec i s = .next t := by
  cases i <;> exact ⟨_, rfl⟩

/-- Settles O30: no arm of `exec` has another outcome, and a step ends in the closed form. -/
theorem noOperationAndNoStepEverStops : Obligations.NoOperationAndNoStepEverStops :=
  ⟨exec_eq_next, fun s => ⟨s.next, step_eq_next s⟩⟩

/-! ### Cycles without a write or a transfer (R180) -/

theorem Block.nextConfig_of_no_write (b : Block) {p : PortIn} (hwe : p.cfgWe = false) : b.nextConfig p = b := by
  simp [Block.nextConfig, hwe]

/-- No unit held, no write and no unit transferring: nothing changes the block. -/
theorem Block.next_of_idle {b : Block} {p : PortIn} (hrst : p.rst = false) (hwe : p.cfgWe = false)
    (hheld : b.held = false) (hfire : (p.inValid && b.en) = false) : b.next p = b := by
  rw [Block.next_of_no_transfer hrst hheld hfire, b.nextConfig_of_no_write hwe]

theorem State.sameStreams_next {s : State} (hin : s.inFires = false) (hout : s.outFires = false) :
    s.SameStreams s.next := by
  rw [State.next_of_no_transfer hin hout]
  exact ⟨rfl, rfl⟩

theorem State.SameStreams.trans {s t u : State} (h : s.SameStreams t) (h' : t.SameStreams u) : s.SameStreams u :=
  ⟨h'.accepted.trans h.accepted, h'.taken.trans h.taken⟩

theorem Block.SameDatapath.trans {b c d : Block} (h : b.SameDatapath c) (h' : c.SameDatapath d) :
    b.SameDatapath d :=
  ⟨h'.held.trans h.held, h'.unit.trans h.unit, h'.bidx.trans h.bidx, h'.lastidx.trans h.lastidx,
    h'.cnt.trans h.cnt⟩

/-- Settles O50: with EN = 0 no offered unit transfers. -/
theorem anIdleBlockKeepsItsState : Obligations.AnIdleBlockKeepsItsState := by
  intro s t hen hheld hrst hwe hstep
  rw [eq_next_of_step hstep]
  exact Block.next_of_idle hrst hwe hheld (by rw [hen, Bool.and_false])

/-! ### Environments without end (log entry 22) -/

/-- What an environment goes through next: what is left, or from the start where nothing is. -/
def upcoming {α : Type} : List α → List α → List α
  | [], ys => ys
  | x :: xs, _ => x :: xs

theorem map_upcoming {α β : Type} (f : α → β) (xs ys : List α) :
    (upcoming xs ys).map f = upcoming (xs.map f) (ys.map f) := by
  cases xs <;> rfl

theorem mem_append_of_mem_upcoming {α : Type} {x : α} {xs ys : List α} (h : x ∈ upcoming xs ys) :
    x ∈ xs ++ ys := by
  cases xs with
  | nil => exact h
  | cons => exact List.mem_append_left _ h

/-- Starting over adds one whole pass, or none. -/
theorem upcoming_eq_append_passes {α : Type} (xs ys : List α) :
    ∃ n, upcoming xs ys = xs ++ (List.replicate n ys).flatten := by
  cases xs with
  | nil => exact ⟨1, by simp [upcoming]⟩
  | cons => exact ⟨0, by simp [upcoming]⟩

/-- Where `x` comes next it is the first upcoming element, and the rest goes on as it would have. -/
theorem upcoming_of_append_eq_cons {α : Type} {x : α} {xs ys zs : List α} (h : xs ++ ys = x :: zs) :
    ∃ ws extra, upcoming xs ys = x :: ws ∧ ws ++ ys = zs ++ extra := by
  cases xs with
  | nil =>
    obtain rfl : ys = x :: zs := h
    exact ⟨zs, x :: zs, rfl, rfl⟩
  | cons =>
    obtain ⟨rfl, htail⟩ := List.cons.inj h
    exact ⟨_, [], rfl, htail.trans (List.append_nil zs).symm⟩

/-- Lines with none to pass, `sink` or `idle` of no cycles, before the first that takes a cycle. -/
structure Timed (ls : List Line) : Prop where
  lines : settleLines ls = ls
  sink : ∀ on, settleSink ls on = on

theorem timed_cycles (ps : List PortIn) : Timed (ps.map .cycle) := by
  cases ps <;> exact ⟨rfl, fun _ => rfl⟩

theorem timed_bytesLines (ds : List Byte) : Timed (bytesLines ds) := by
  cases ds <;> exact ⟨rfl, fun _ => rfl⟩

section Timed
variable {s : State} (hscript : Timed s.script) (hagain : Timed s.again)
include hscript hagain

theorem State.pending_of_timed : s.pending = upcoming s.script s.again := by
  rw [State.pending, hscript.lines, hagain.lines]
  cases s.script <;> rfl

theorem State.level_of_timed : s.level = s.sinkOn := by
  rw [State.level, hscript.lines, hscript.sink, hagain.sink]
  cases s.script <;> rfl

end Timed

/-! ### Ports that meet a condition for ever -/

section Drives
variable {P : PortIn → Prop} {s : State}

theorem scriptPorts_of_forall {ps : List PortIn} {on : Bool} (hnone : P (undriven on)) (hps : ∀ p ∈ ps, P p) :
    P (scriptPorts on (ps.map .cycle)) := by
  cases ps with
  | nil => exact hnone
  | cons p ps => exact hps p List.mem_cons_self

theorem scriptRest_cycles (b : Block) (ps : List PortIn) :
    scriptRest b (ps.map .cycle) = ps.tail.map .cycle := by
  cases ps <;> rfl

/-- The present cycle of such an environment meets the condition, and so do those after it. -/
theorem State.Drives.present_and_next (h : s.Drives P) : P s.present ∧ s.next.Drives P := by
  obtain ⟨hnone, ps, qs, hscript, hagain, hall⟩ := h
  have htimed := hscript ▸ timed_cycles ps
  have htimed' := hagain ▸ timed_cycles qs
  have hpending : s.pending = (upcoming ps qs).map .cycle := by
    rw [State.pending_of_timed htimed htimed', hscript, hagain, map_upcoming]
  have hlevel := State.level_of_timed htimed htimed'
  have hupcoming : ∀ p ∈ upcoming ps qs, P p := fun p hp => hall p (mem_append_of_mem_upcoming hp)
  constructor
  · rw [State.present, hpending, hlevel]
    exact scriptPorts_of_forall hnone hupcoming
  · refine ⟨by rwa [State.next_sinkOn, hlevel], (upcoming ps qs).tail, qs, ?_, hagain, fun p hp => ?_⟩
    · rw [State.next_script, hpending, scriptRest_cycles]
    · obtain hp | hp := List.mem_append.mp hp
      · exact hupcoming p (List.mem_of_mem_tail hp)
      · exact hall p (List.mem_append_right _ hp)

end Drives

/-! ### A sink that is never ready (R181, first case) -/

/-- The ports of a cycle in which the sink takes nothing. -/
def PortIn.Refuses (p : PortIn) : Prop := p.rst = false ∧ p.outReady = false

/-- A stall that began in `s` goes on in `t`. -/
structure State.StallsOn (s t : State) : Prop where
  drives : t.Drives PortIn.Refuses
  held : t.block.held = true
  datapath : s.block.SameDatapath t.block
  streams : s.SameStreams t

theorem State.StallsOn.next {s t : State} (h : s.StallsOn t) : s.StallsOn t.next := by
  obtain ⟨⟨hrst, hready⟩, hdrives⟩ := h.drives.present_and_next
  obtain ⟨hin, hout⟩ := State.transfers_of_held hrst h.held
  have hdatapath : t.block.SameDatapath t.next.block := by
    rw [State.next_block, Block.next_of_stall hrst h.held hready, ← configured_eq_nextConfig]
    exact configured_datapath _ _
  exact ⟨hdrives, hdatapath.held.trans h.held, h.datapath.trans hdatapath,
    h.streams.trans (State.sameStreams_next hin (hout.trans hready))⟩

/-- Settles O58: every cycle keeps the stall, and a stalled block's output operation is OUT_STALL. -/
theorem aSinkThatIsNeverReadyStallsForEver : Obligations.ASinkThatIsNeverReadyStallsForEver := by
  intro s hheld hdrives k
  have hrun := steps_eq_iterate k s
  have hstall : s.StallsOn (State.next^[k] s) :=
    steps_induction (P := s.StallsOn) (fun _ h => h.next)
      ⟨hdrives, hheld, ⟨rfl, rfl, rfl, rfl, rfl⟩, ⟨rfl, rfl⟩⟩ hrun
  obtain ⟨⟨-, hready⟩, -⟩ := hstall.drives.present_and_next
  refine ⟨_, hrun, hstall.datapath, hstall.streams.taken, hstall.streams.accepted, ?_⟩
  simp [decode, decodeE_formE, hstall.held, hready]

/-! ### A source that offers nothing (R181, third case, R208) -/

/-- The ports of a cycle without a write or an offer. -/
def PortIn.Quiet (p : PortIn) : Prop := p.rst = false ∧ p.cfgWe = false ∧ p.inValid = false

/-- A block that idles since `s` still does in `t`. -/
structure State.IdlesOn (s t : State) : Prop where
  drives : t.Drives PortIn.Quiet
  held : t.block.held = false
  block : t.block = s.block
  streams : s.SameStreams t

theorem State.IdlesOn.next {s t : State} (h : s.IdlesOn t) : s.IdlesOn t.next := by
  obtain ⟨⟨hrst, hwe, hvalid⟩, hdrives⟩ := h.drives.present_and_next
  obtain ⟨hin, hout⟩ := State.transfers_of_idle hrst h.held
  have hfire : (t.present.inValid && t.block.en) = false := by rw [hvalid, Bool.false_and]
  have hblock : t.next.block = t.block := Block.next_of_idle hrst hwe h.held hfire
  exact ⟨hdrives, hblock ▸ h.held, hblock.trans h.block,
    h.streams.trans (State.sameStreams_next (hin.trans hfire) hout)⟩

/-- Settles O60: every cycle keeps the block idle, with EN = 1 and no unit held or offered. -/
theorem aSourceThatOffersNothingIdlesForEver : Obligations.ASourceThatOffersNothingIdlesForEver := by
  intro s hen hheld hdrives k
  have hrun := steps_eq_iterate k s
  have hidle : s.IdlesOn (State.next^[k] s) :=
    steps_induction (P := s.IdlesOn) (fun _ h => h.next) ⟨hdrives, hheld, rfl, ⟨rfl, rfl⟩⟩ hrun
  obtain ⟨⟨hrst, -, hvalid⟩, -⟩ := hidle.drives.present_and_next
  refine ⟨_, hrun, hidle.block, hidle.streams.taken, hidle.streams.accepted, ?_, ?_⟩
  · simp [inReady, hrst, hidle.block, hen, hheld]
  · simp [State.quiescent, hidle.held, hvalid]

/-! ### A source that offers its input for ever (R181, second case, R209, R213) -/

/-- An enabled block in MODE `m` with SPS not 0 and a ready sink, whose source has `cs` left to offer and then
offers `bs` over and over. -/
structure State.Reoffers (m : Mode) (cs bs : List Byte) (s : State) : Prop where
  inv : s.block.Inv
  en : s.block.en = true
  mode : s.block.mode = m
  sps : s.block.sps ≠ 0#45
  sinkOn : s.sinkOn = true
  script : s.script = bytesLines cs
  again : s.again = bytesLines bs

/-- The units left to offer after a cycle: all of `ds` while a unit is held, else all but the first. -/
def leftToOffer (b : Block) (ds : List Byte) : List Byte := if b.held then ds else ds.tail

theorem scriptRest_bytesLines {b : Block} (hen : b.en = true) (ds : List Byte) :
    scriptRest b (bytesLines ds) = bytesLines (leftToOffer b ds) := by
  cases ds <;> cases hheld : b.held <;> simp [scriptRest, bytesLines, leftToOffer, Line.rest, hen, hheld]

namespace State.Reoffers
variable {m : Mode} {cs bs : List Byte} {s : State}

theorem pending (h : s.Reoffers m cs bs) : s.pending = bytesLines (upcoming cs bs) := by
  rw [State.pending_of_timed (h.script ▸ timed_bytesLines cs) (h.again ▸ timed_bytesLines bs), h.script, h.again]
  exact (map_upcoming _ _ _).symm

theorem level (h : s.Reoffers m cs bs) : s.level = true :=
  (State.level_of_timed (h.script ▸ timed_bytesLines cs) (h.again ▸ timed_bytesLines bs)).trans h.sinkOn

theorem present_eq (h : s.Reoffers m cs bs) : s.present = scriptPorts true (bytesLines (upcoming cs bs)) := by
  rw [State.present, h.level, h.pending]

/-- The source drives the offer alone, and the sink is on. -/
theorem present (h : s.Reoffers m cs bs) :
    s.present.rst = false ∧ s.present.cfgWe = false ∧ s.present.outReady = true := by
  rw [h.present_eq]
  cases upcoming cs bs <;> exact ⟨rfl, rfl, rfl⟩

theorem sameConfig (h : s.Reoffers m cs bs) : s.block.SameConfig s.next.block := by
  obtain ⟨hrst, hwe, -⟩ := h.present
  rw [State.next_block]
  simpa only [Block.nextConfig_of_no_write _ hwe] using (s.block.edge_next s.present).sameConfig hrst

theorem next (h : s.Reoffers m cs bs) :
    s.next.Reoffers m (leftToOffer s.block (upcoming cs bs)) bs := by
  have hconfig := h.sameConfig
  exact {
    inv := State.inv_next h.inv
    en := hconfig.en.trans h.en
    mode := hconfig.mode.trans h.mode
    sps := hconfig.sps_eq ▸ h.sps
    sinkOn := h.level
    script := by rw [State.next_script, h.pending, scriptRest_bytesLines h.en]
    again := h.again }

/-- The unit transferred in a cycle is the first one left to offer before it. -/
theorem acceptedNow_append_leftToOffer (h : s.Reoffers m cs bs) :
    s.acceptedNow.map Accepted.data ++ leftToOffer s.block (upcoming cs bs) = upcoming cs bs := by
  obtain ⟨hrst, -, -⟩ := h.present
  cases hheld : s.block.held
  case true => simp [(State.records_of_held hrst hheld).1, leftToOffer, hheld]
  case false =>
    have hin : s.inFires = s.present.inValid := by
      rw [(State.transfers_of_idle hrst hheld).1, h.en, Bool.and_true]
    rw [State.acceptedNow, leftToOffer, hin, h.present_eq, hheld]
    cases upcoming cs bs <;> rfl

end State.Reoffers

/-- `t` is on the way through `input` and then passes of `bs`: what its source's record lacks of them so far is
left to offer. -/
def State.OnTheWay (m : Mode) (input bs : List Byte) (t : State) : Prop :=
  ∃ (cs : List Byte) (n : Nat), t.Reoffers m cs bs
    ∧ t.accepted.map Accepted.data ++ cs = input ++ (List.replicate n bs).flatten

theorem State.OnTheWay.next {m : Mode} {input bs : List Byte} {t : State} (h : t.OnTheWay m input bs) :
    t.next.OnTheWay m input bs := by
  obtain ⟨cs, n, hsource, hrecord⟩ := h
  obtain ⟨j, hpass⟩ := upcoming_eq_append_passes cs bs
  refine ⟨_, n + j, hsource.next, ?_⟩
  calc t.next.accepted.map Accepted.data ++ leftToOffer t.block (upcoming cs bs)
      = t.accepted.map Accepted.data ++ upcoming cs bs := by
        rw [State.next_accepted, List.map_append, List.append_assoc, hsource.acceptedNow_append_leftToOffer]
    _ = input ++ (List.replicate (n + j) bs).flatten := by
        rw [hpass, ← List.append_assoc, hrecord, List.replicate_add, List.flatten_append, List.append_assoc]

/-- A run of a repeating source stays on the way. -/
theorem State.Reoffers.onTheWay_iterate {m : Mode} {cs bs : List Byte} {s : State} (h : s.Reoffers m cs bs)
    (k : Nat) : (State.next^[k] s).OnTheWay m (s.accepted.map Accepted.data ++ cs) bs :=
  steps_induction (P := State.OnTheWay m _ bs) (fun _ h => h.next) ⟨cs, 0, h, (List.append_nil _).symm⟩
    (steps_eq_iterate k s)

namespace State.Reoffers
variable {m : Mode} {cs bs : List Byte} {s : State}

theorem taken_next_of_held (h : s.Reoffers m cs bs) (hheld : s.block.held = true) :
    s.next.taken.length = s.taken.length + 1 := by
  obtain ⟨hrst, -, hready⟩ := h.present
  have htaken := (State.due_length_next h.inv hrst (h.inv.held_iff_due_length_pos.mp hheld)).2
  rwa [hready] at htaken

/-- A unit with symbols, offered while none is held, is held after the cycle. -/
theorem held_next {d : Byte} {ds : List Byte} (h : s.Reoffers m cs bs) (hheld : s.block.held = false)
    (hnext : upcoming cs bs = d :: ds) (hsyms : syms m d ≠ []) : s.next.block.held = true := by
  obtain ⟨hrst, hwe, -⟩ := h.present
  have hports : s.present = (Line.unit d).ports true := by
    rw [h.present_eq, hnext]
    rfl
  have hvalid : s.present.inValid = true := hports ▸ rfl
  have hdata : s.present.inData = d := hports ▸ rfl
  rw [State.next_block, Block.next_of_accept hrst hheld hvalid h.en, Block.nextConfig_of_no_write _ hwe,
    holdUnit_held_iff hheld, h.mode, hdata]
  exact ⟨h.sps, hsyms⟩

theorem taken_next_of_idle (hheld : s.block.held = false) : s.next.taken = s.taken := by
  rw [State.next_taken, State.takenNow_of_idle hheld, List.append_nil]

/-- However many units come before one with symbols, a pair is taken at last. -/
theorem exists_taken {d : Byte} {before after : List Byte} (h : s.Reoffers m cs bs) (hsyms : syms m d ≠ [])
    (hoffers : cs ++ bs = before ++ d :: after) : ∃ k, s.taken.length < (State.next^[k] s).taken.length := by
  induction before generalizing s cs after with
  | nil =>
    cases hheld : s.block.held
    case true => exact ⟨1, Nat.lt_of_succ_le (h.taken_next_of_held hheld).ge⟩
    obtain ⟨ds, -, hnext, -⟩ := upcoming_of_append_eq_cons hoffers
    refine ⟨2, Nat.lt_of_succ_le ?_⟩
    rw [← taken_next_of_idle hheld]
    exact (h.next.taken_next_of_held (h.held_next hheld hnext hsyms)).ge
  | cons e before ih =>
    cases hheld : s.block.held
    case true => exact ⟨1, Nat.lt_of_succ_le (h.taken_next_of_held hheld).ge⟩
    obtain ⟨ds, extra, hnext, hleft⟩ := upcoming_of_append_eq_cons (zs := before ++ d :: after) hoffers
    have hsource : s.next.Reoffers m ds bs := by
      have hsource := h.next
      rwa [hnext, leftToOffer, hheld] at hsource
    rw [List.append_assoc, List.cons_append] at hleft
    obtain ⟨k, hk⟩ := ih hsource hleft
    exact ⟨k + 1, taken_next_of_idle hheld ▸ hk⟩

/-- Where some unit of `bs` has symbols, the output has no bound. -/
theorem exists_le_taken {d : Byte} (h : s.Reoffers m cs bs) (hd : d ∈ bs) (hsyms : syms m d ≠ []) (n : Nat) :
    ∃ k, n ≤ (State.next^[k] s).taken.length := by
  induction n with
  | zero => exact ⟨0, Nat.zero_le _⟩
  | succ n ih =>
    obtain ⟨k, hk⟩ := ih
    obtain ⟨cs', -, hsource, -⟩ := h.onTheWay_iterate k
    obtain ⟨before, after, hoffers⟩ := List.append_of_mem (List.mem_append_right cs' hd)
    obtain ⟨j, hj⟩ := hsource.exists_taken hsyms hoffers
    refine ⟨j + k, ?_⟩
    rw [Function.iterate_add_apply]
    exact Nat.succ_le_of_lt (hk.trans_lt hj)

end State.Reoffers

/-- Settles O59: what is left to offer completes the record to passes of the input, and each pair taken is
followed by another. -/
theorem aRepeatingSourceGivesUnboundedOutput : Obligations.ARepeatingSourceGivesUnboundedOutput := by
  intro s cs bs hinv hen hsps hsink hscript hagain
  have hsource : s.Reoffers s.block.mode cs bs := ⟨hinv, hen, rfl, hsps, hsink, hscript, hagain⟩
  constructor
  · intro k
    obtain ⟨cs', n, -, hrecord⟩ := hsource.onTheWay_iterate k
    exact ⟨_, n, steps_eq_iterate k s, cs', hrecord⟩
  · rintro ⟨d, hd, hsyms⟩ n
    obtain ⟨k, hk⟩ := hsource.exists_le_taken hd hsyms n
    exact ⟨k, _, steps_eq_iterate k s, hk⟩

end Sys2Proof.Machine

/-! PROOFS. The family of 70_reset_and_hazards.md: reset cycles, the host's boot and reconfiguration sequences run
line by line, and what the block offers and accepts around a stall, a stop, a unit's end and a start. -/

namespace Sys2Proof.Machine

/-! ### One line of a script a cycle (R86) -/

/-- The block is `b` and the lines still to be driven are `ls`. -/
structure State.At (b : Block) (ls : List Line) (s : State) : Prop where
  block : s.block = b
  script : s.script = ls

/-- A line that takes a cycle drives its ports in it and leaves its rest. -/
theorem State.At.next {s : State} {b : Block} {l : Line} {ls : List Line} (h : s.At b (l :: ls))
    (hl : settleLines (l :: ls) = l :: ls) :
    s.next.At (b.next (l.ports s.level)) (l.rest b ++ ls) := by
  have hpending := State.pending_of_settled h.script hl
  constructor
  · rw [State.next_block, h.block, State.present_of_pending hpending]
  · rw [State.next_script, hpending, h.block, scriptRest]

/-! ### Reset (R190 to R192) -/

/-- Settles O2: RESET is one write of the block, and a reset cycle latches the ports and runs it alone. -/
theorem resetRestoresEveryElement : Obligations.ResetRestoresEveryElement := by
  refine ⟨rfl, rfl, fun s => ?_, fun s hrst => ?_⟩
  · exact ⟨s.setBlock Block.reset, rfl, rfl, rfl, rfl, rfl, rfl, rfl, rfl, rfl, rfl, rfl, ⟨rfl, rfl, rfl, rfl⟩,
      ⟨rfl, rfl⟩⟩
  · have hready : inReady s.block s.present = false := by simp [inReady, hrst]
    have hvalid : outValid s.block s.present = false := by simp [outValid, hrst]
    exact ⟨s.latch.setBlock Block.reset, step_of_rst hrst, rfl, ⟨rfl, rfl⟩, hready, hvalid, rfl, rfl⟩

/-- A `reset` line resets the block, whatever it held. -/
theorem State.At.reset {s : State} {b : Block} {ls : List Line} (h : s.At b (.reset :: ls)) :
    s.next.At Block.reset ls := by
  have hnext := h.next rfl
  rwa [Block.next_of_rst b rfl] at hnext

/-- Nothing transfers in the cycle of a `reset` line. -/
theorem State.At.sameStreams_reset {s : State} {b : Block} {ls : List Line} (h : s.At b (.reset :: ls)) :
    s.SameStreams s.next := by
  have hports := State.present_of_pending (State.pending_of_settled h.script rfl)
  obtain ⟨hin, hout⟩ := State.no_transfer_of_rst (s := s) (hports ▸ rfl)
  exact State.sameStreams_next hin hout

/-- A run of `n + 1` reset lines, by induction: the first resets the block, the others find it reset. -/
theorem State.At.iterate_reset {s : State} {b : Block} {ls : List Line} {n : Nat}
    (h : s.At b (List.replicate (n + 1) .reset ++ ls)) :
    (State.next^[n + 1] s).At Block.reset ls ∧ s.SameStreams (State.next^[n + 1] s) := by
  induction n generalizing s b with
  | zero => exact ⟨h.reset, h.sameStreams_reset⟩
  | succ n ih =>
    obtain ⟨hend, hstreams⟩ := ih h.reset
    exact ⟨hend, State.SameStreams.trans h.sameStreams_reset hstreams⟩

/-- Settles O3: `n + 1` steps are `n + 1` applications of the closed form, each on a reset line. -/
theorem resetCyclesFromAnyStateLeaveTheResetValues :
    Obligations.ResetCyclesFromAnyStateLeaveTheResetValues := by
  intro n ls s hscript
  obtain ⟨hend, hstreams⟩ := State.At.iterate_reset (b := s.block) ⟨rfl, hscript⟩
  exact ⟨_, steps_eq_iterate (n + 1) s, hend.block, hend.script, hstreams⟩

/-! ### The host's sequences (R193, R194) -/

@[simp] theorem ctrlEn_ctrlWord (m : Mode) (en : Bool) : ctrlEn (ctrlWord m en) = en := by
  cases m <;> cases en <;> rfl

@[simp] theorem ctrlMode_ctrlWord (m : Mode) (en : Bool) : ctrlMode (ctrlWord m en) = m := by
  cases m <;> cases en <;> rfl

theorem Block.held_of_unlocked {b : Block} (hlock : b.locked = false) : b.held = false :=
  (Bool.or_eq_false_iff.mp hlock).2

namespace State.At
variable {s : State} {b : Block} {ls : List Line}

/-- In the cycle of a `wr` line with no unit held the configuration operation alone acts on the block. -/
theorem wr {reg : CfgAddr} {v : Word} (h : s.At b (.wr reg v :: ls)) (hheld : b.held = false) :
    s.next.At (configured b ((Line.wr reg v).ports s.level)) ls := by
  have hnext := h.next rfl
  rwa [Block.next_of_no_transfer rfl hheld rfl, ← configured_eq_nextConfig] at hnext

theorem wrCtrl {v : Word} (h : s.At b (.wr regCTRL v :: ls)) (hheld : b.held = false) :
    s.next.At (b.writeCtrl v) ls := h.wr hheld

/-- An unlocked block takes EN and MODE from the CTRL word of a start or stop line (R101). -/
theorem wrCtrlWord {m : Mode} {en : Bool} (h : s.At b (.wr regCTRL (ctrlWord m en) :: ls))
    (hlock : b.locked = false) : s.next.At { b with en := en, mode := m } ls := by
  have hwrite : b.writeCtrl (ctrlWord m en) = { b with en := en, mode := m } := by
    simp [Block.writeCtrl, hlock]
  exact hwrite ▸ h.wr (Block.held_of_unlocked hlock)

theorem wrRate {v : Word} (h : s.At b (.wr regRATE v :: ls)) (hlock : b.locked = false) :
    s.next.At { b with rate := v } ls := by
  have hwrite : b.writeRate v = { b with rate := v } := by simp [Block.writeRate, hlock]
  exact hwrite ▸ h.wr (Block.held_of_unlocked hlock)

theorem wrPeriod {v : Word} (h : s.At b (.wr regPERIOD v :: ls)) (hlock : b.locked = false) :
    s.next.At { b with period := v } ls := by
  have hwrite : b.writePeriod v = { b with period := v } := by simp [Block.writePeriod, hlock]
  exact hwrite ▸ h.wr (Block.held_of_unlocked hlock)

/-- With no unit held STATUS bit 0 reads 0, so `waitIdle` ends at once (R87). -/
theorem waitIdle (h : s.At b (.waitIdle :: ls)) (hheld : b.held = false) : s.next.At b ls := by
  have hnext := h.next rfl
  have hrest : Line.waitIdle.rest b = [] := by simp [Line.rest, Block.busy, hheld]
  rwa [Block.next_of_idle rfl rfl hheld rfl, hrest] at hnext

/-- The end of both sequences: RATE, PERIOD and the start write, on an unlocked block. -/
theorem configureAndStart {r p : Word} {m : Mode}
    (h : s.At b (.wr regRATE r :: .wr regPERIOD p :: startLines m ++ ls)) (hlock : b.locked = false) :
    (State.next^[3] s).At { b with en := true, mode := m, rate := r, period := p } ls :=
  ((h.wrRate hlock).wrPeriod hlock).wrCtrlWord hlock

end State.At

/-- Settles O55: the reset line leaves an unlocked block. -/
theorem theBootSequenceStartsTheWantedRun : Obligations.TheBootSequenceStartsTheWantedRun := by
  intro s r p m ls hscript
  have hstart : s.At s.block (bootLines r p m ++ ls) := ⟨rfl, hscript⟩
  have hend := hstart.reset.configureAndStart rfl
  exact ⟨_, steps_eq_iterate 4 s, hend.script, hend.block⟩

/-- Settles O56: the stop write unlocks a block that holds no unit, whatever its MODE becomes, and the CTRL write
after it sets the new one. -/
theorem theReconfigurationSequenceTakesEffect : Obligations.TheReconfigurationSequenceTakesEffect := by
  intro s r p old new ls hheld hscript
  have hbegin : s.At s.block (reconfigureLines r p old new ++ ls) := ⟨rfl, hscript⟩
  have hstopped := (hbegin.wrCtrl hheld).waitIdle hheld
  have hunlocked : (s.block.writeCtrl (ctrlWord old false)).locked = false := by
    simp [Block.locked, Block.writeCtrl, hheld]
  have hend := (hstopped.wrCtrlWord hunlocked).configureAndStart hheld
  exact ⟨_, steps_eq_iterate 6 s, hend.script, hend.block⟩

/-! ### Offers (R155, R201) -/

/-- A pair is offered while a unit is held, outside reset (R42). -/
theorem outValid_eq_true_iff (b : Block) (p : PortIn) :
    outValid b p = true ↔ p.rst = false ∧ b.held = true := by
  simp [outValid]

theorem outValid_of_idle {b : Block} (hheld : b.held = false) (p : PortIn) : outValid b p = false := by
  simp [outValid, hheld]

/-- The pair driven is a function of the datapath. -/
theorem Block.SameDatapath.portOut_out {b c : Block} (h : b.SameDatapath c) (p q : PortIn) :
    (portOut c q).out = (portOut b p).out := by
  simp [Block.sym, h.held, h.unit, h.bidx]

/-- A stalled cycle leaves the datapath alone, even where it writes a register. -/
theorem Block.sameDatapath_next_of_stall {b : Block} {p : PortIn} (hrst : p.rst = false) (hheld : b.held = true)
    (hready : p.outReady = false) : b.SameDatapath (b.next p) := by
  rw [Block.next_of_stall hrst hheld hready, ← configured_eq_nextConfig]
  exact configured_datapath b p

/-- Settles O46: the cycle of an offer not taken is a stall, so the next one drives the same datapath. -/
theorem anOfferedPairIsStableUntilTaken : Obligations.AnOfferedPairIsStableUntilTaken := by
  intro s t u hst htu hoffer hready hrst
  obtain rfl := eq_next_of_step hst
  rw [eq_next_of_step htu, State.next_pins]
  obtain ⟨hsrst, hheld⟩ := (outValid_eq_true_iff s.block s.present).mp hoffer
  have hsame : s.block.SameDatapath s.next.block := Block.sameDatapath_next_of_stall hsrst hheld hready
  exact ⟨(outValid_eq_true_iff _ _).mpr ⟨hrst, hsame.held.trans hheld⟩, hsame.portOut_out _ _⟩

/-! ### A stop while a unit is held (R198) -/

theorem Block.locked_of_held {b : Block} (hheld : b.held = true) : b.locked = true := by
  simp [Block.locked, hheld]

/-- Settles O47: a transfer in needs EN = 1, and an edge that clears `held` without reset is EMIT_UNIT_END. -/
theorem aDisabledBlockDrainsItsUnit : Obligations.ADisabledBlockDrainsItsUnit := by
  intro s t hen hrst hstep
  have hedge := edge_of_step hstep
  obtain rfl := eq_next_of_step hstep
  have hin : s.inFires = false := by simp [State.inFires, inReady, hen]
  refine ⟨by simp [State.acceptedNow, hin], fun hheld hready => ?_, fun hheld => ?_⟩
  · rw [State.next_taken, (State.records_of_held hrst hheld).2, if_pos hready]
  · cases hnext : s.next.block.held
    case true => exact .inl (Block.locked_of_held hnext)
    case false =>
      have hcleared := (hedge.reset_or_unitEnd hheld hnext).resolve_left (by simp [hrst])
      exact .inr (congrArg Except.ok hcleared)

/-! ### The cycle after a unit's last pair (R200) -/

/-- EMIT_UNIT_END is selected on the last sample of a held unit's last symbol alone, the sink ready. -/
theorem unitEnd_of_decodeE_formE {b : Block} {p : PortIn} (h : decodeE (formE b p) = .emitUnitEnd) :
    b.held = true ∧ p.outReady = true ∧ b.slast = true ∧ b.ulast = true := by
  rw [decodeE_formE] at h
  split_ifs at h with hheld hready hslast hulast
  rw [← Block.slast_eq_false_iff] at hslast
  rw [← Block.ulast_eq_false_iff] at hulast
  exact ⟨eq_true_of_ne_false hheld, eq_true_of_ne_false hready, eq_true_of_ne_false hslast,
    eq_true_of_ne_false hulast⟩

/-- Settles O48: EMIT_UNIT_END leaves a released block. -/
theorem oneCycleWithoutAnOfferFollowsEachUnit : Obligations.OneCycleWithoutAnOfferFollowsEachUnit := by
  intro s t hstep hrst hop p
  obtain ⟨hheld, hready, hslast, hulast⟩ := unitEnd_of_decodeE_formE (Except.ok.inj hop)
  have hblock : t.block = (s.block.nextConfig s.present).release := by
    rw [eq_next_of_step hstep, State.next_block, Block.next_of_emit hrst hheld hready]
    simp [hslast, hulast]
  have hreleased : t.block.held = false := hblock ▸ Block.release_held _
  exact ⟨outValid_of_idle hreleased p, by simp [inReady, hreleased]⟩

/-! ### Start latency (R197) -/

/-- A CTRL write with bit 0 set enables a block that holds no unit. -/
theorem Block.next_of_start {b : Block} {p : PortIn} (hrst : p.rst = false) (hen : b.en = false)
    (hheld : b.held = false) (hwe : p.cfgWe = true) (haddr : p.cfgAddr = 0#3)
    (hbit : p.cfgWdata.getLsbD 0 = true) : (b.next p).en = true ∧ (b.next p).held = false := by
  rw [Block.next_of_no_transfer hrst hheld (by simp [hen]), Block.nextConfig_held]
  exact ⟨by simpa [Block.nextConfig, hwe, haddr] using hbit, hheld⟩

/-- Settles O49: the block enabled by the first cycle accepts in the second, and holds the unit in the third. -/
theorem startLatencyIsOneCycleToAcceptAndOneToOffer :
    Obligations.StartLatencyIsOneCycleToAcceptAndOneToOffer := by
  intro s t u v hheld hrst hwe haddr hbit hen hst htrst hoffer htu
  obtain rfl := eq_next_of_step hst
  obtain ⟨hten, htheld⟩ := Block.next_of_start hrst hen hheld hwe haddr hbit
  have hfires : s.next.inFires = true := s.next.inFires_iff.mpr ⟨htrst, htheld, hoffer, hten⟩
  have hunit := (theHeldUnitAgreesWithTheSymbolFunction s.next u htu hfires).1
  obtain rfl := eq_next_of_step htu
  refine ⟨?_, outValid_of_idle hheld _, outValid_of_idle htheld _, fun hsps hsyms hurst huv => ?_⟩
  · rw [State.next_accepted s.next, State.acceptedNow, if_pos hfires, List.length_append, List.length_singleton]
  · obtain ⟨huheld, -⟩ := hunit (fun hzero => hsps (BitVec.eq_of_toNat_eq hzero)) hsyms
    rw [eq_next_of_step huv, State.next_pins, portOut_outValid, outValid_eq_true_iff]
    exact ⟨hurst, huheld⟩

end Sys2Proof.Machine
